-- ==== Sys2Proof/Word.lean ====
section
/-! DEFINITION. The words of the CORE block: command and register words, and binary32 bit patterns. -/

namespace Sys2Proof

/-- A 32-bit command, data or register word (30_encoding R90, 20_memory R70). -/
abbrev Word := BitVec 32

/-- A quantity of type `Num` under NUM = F32: an IEEE 754 binary32 bit pattern, sign in bit 31
(00_scope R5, 20_memory R72, 30_encoding R103). -/
abbrev F32 := BitVec 32

/-- The three Hall lines, or a raw Hall code: bit 0 = H1 (30_encoding R100). -/
abbrev HallCode := BitVec 3

end Sys2Proof
end

