-- ==== Sys2Proof/Config.lean ====
section
/-! DEFINITION. What an implementation or the environment fixes: the numeric domain NUM, the parameter record PAR, the
configuration record CFG, the inputs one control tick samples, and the free values (opaque constants: nothing in Lean can evaluate
them). A record of real-valued quantities takes the type `N` of Num as its argument (00_scope R5, section 6); where none is given
it is F32, the default of NUM. -/

namespace Sys2Proof

/-- A finite binary32, by its three fields: the exponent field 255 cannot be written. -/
structure FiniteF32 where
  negative : Bool
  exponent : Fin 255
  fraction : BitVec 23
  deriving DecidableEq, Repr, Inhabited

/-- HALL_MAP (00_scope R6): one index per valid raw code 1..6, no index twice, so a bijection onto {0..5}. A map that is none
cannot be written. -/
structure HallMap where
  code1 : Fin 6
  code2 : Fin 6
  code3 : Fin 6
  code4 : Fin 6
  code5 : Fin 6
  code6 : Fin 6
  bijective : [code1, code2, code3, code4, code5, code6].Nodup
  deriving DecidableEq, Repr

/-- The parameter record PAR (00_scope R5). NUM is the type argument `N` with the `NumDomain` that every definition takes; the
record holds the other parameters, HALL_MAP (R6) and SV_K (43_svpwm R174). -/
structure Par (N : Type := F32) where
  /-- CLOCK_HZ, the edge-counter clock frequency in Hz. -/
  clockHz : N
  /-- W_CNT, the width of the edge counter and the captured period. -/
  wCnt : Nat
  /-- W_TS, the width of the time base and its captures. -/
  wTs : Nat
  /-- OVF_PERIOD, the nominal overflow period in cycles; no rule reads it (40_capture R112). -/
  ovfPeriod : Nat
  /-- STALL_LIMIT, the overflow ticks without an edge before `timed_out`. -/
  stallLimit : Nat
  /-- W_STALL, the width of the stall counter. -/
  wStall : Nat
  /-- T_CTRL, the control period in seconds. -/
  tCtrl : N
  /-- TEST_PORT_EN, whether the unit operations are legal (30_encoding R95). -/
  testPortEn : Bool
  /-- W_DUTY, the width of a duty and of `max_duty`. -/
  wDuty : Nat
  /-- HALL_MAP (00_scope R6). -/
  hallMap : HallMap
  /-- SV_K, the scale of the raw phase values (43_svpwm R174). -/
  svK : N
  deriving DecidableEq, Repr

/-- The configuration record CFG (00_scope R7). Its ranges are `cfgValid` in Machine/Reset.lean. -/
structure Cfg (N : Type := F32) where
  polePairs : Nat
  alpha : N
  interpEn : Bool
  interpMinRpm : N
  electricalOffset : N
  directionInversed : Bool
  kp : N
  ki : N
  piOutLimit : N
  vLimit : N
  maxDuty : Nat
  olInitRpm : N
  olTargetRpm : N
  olAccel : N
  olDuty : N
  rampRate : N
  zeroEpsRpm : N
  calTorque : N
  deriving DecidableEq, Repr, Inhabited

/-- A capture operation that may fall into a snapshot gap of a tick (70_reset_and_hazards R320). -/
inductive CaptureOp where
  | hallIn (lines : HallCode)
  | ovfTick
  | clkAdv (n : BitVec 24)
  deriving DecidableEq, Repr, Inhabited

/-- The status of a `CalStep` answer (46_coordinator R246). -/
inductive CalStatus where
  | running
  | succeeded
  | failed
  deriving DecidableEq, Repr, Inhabited

/-- A `CalStep` answer (46_coordinator R246): any status; a drive command; the calibration result, whose offset is of the type `F`
of the finite values of Num. The drive command may hold non-finite values, which R247 replaces by 0. -/
structure CalAnswer (N : Type := F32) (F : Type := FiniteF32) where
  status : CalStatus
  vd : N
  vq : N
  theta : N
  offset : F
  dirInv : Bool
  deriving DecidableEq, Repr, Inhabited

/-- Everything the environment supplies to ONE `CTRL_TICK`: the input signals it samples (10_state R20), the capture operations
in the four gaps between its five snapshot reads (70_reset_and_hazards R320), and the Calibrator's answer (46_coordinator R246),
which is used only where the tick calls `CalStep`. -/
structure TickInput (N : Type := F32) (F : Type := FiniteF32) where
  voltOk : Bool
  vDc : N
  gap1 : List CaptureOp
  gap2 : List CaptureOp
  gap3 : List CaptureOp
  gap4 : List CaptureOp
  cal : CalAnswer N F
  deriving DecidableEq, Repr, Inhabited

/-- What the parameter NUM fixes (00_scope R5 and section 6): the operations of the type `N` of Num, with its finite values `F`.
The instances are `f32Num` (Machine/Num.lean, NUM = F32) and `realNum` (Machine/RealNum.lean, NUM = REAL). -/
structure NumDomain (N F : Type) where
  /-- The constants the rules name. -/
  num0 : N
  num1 : N
  num2 : N
  num60 : N
  twoPi : N
  sqrt3 : N
  /-- 0.1 and 0.5, the bounds of the calibration torque (10_state R38). -/
  torqueMin : N
  torqueMax : N
  /-- `Num(n)`. -/
  ofNat : Nat → N
  /-- `f32(w)` of a finite pattern: the value a real-valued register takes (30_encoding R103). -/
  ofBits : Word → N
  /-- `bits32(v)`: the pattern a real-valued register shows (30_encoding R103). -/
  bits32 : N → Word
  add : N → N → N
  sub : N → N → N
  mul : N → N → N
  div : N → N → N
  neg : N → N
  abs : N → N
  lt : N → N → Bool
  le : N → N → Bool
  max : N → N → N
  clamp : N → N → N → N
  floor : N → N
  /-- `clamp(round(v), 0, max)` (43_svpwm R175, 45_openloop R217). -/
  clampRound : N → Nat → Nat
  /-- Neither a NaN nor an infinity (46_coordinator R244, R247). -/
  isFinite : N → Bool
  sin : N → N
  cos : N → N
  sqrt : N → N
  ofFinite : F → N
  /-- The environment's draw for the tick of this number (log 10). -/
  drawTick : Nat → TickInput N F

/-- The binary32 operations that can meet a case the spec does not fix (logs 3, 4). -/
inductive NumOp where
  | add
  | sub
  | mul
  | div
  | floor
  | min
  | max
  deriving DecidableEq, Repr

namespace Config

/-- SIN, a configuration function with no stated value (00_scope section 6, U13). DESIGN CHOICE (log 2), safe. -/
opaque sin : F32 → F32

/-- COS, a configuration function with no stated value (00_scope section 6, U13). DESIGN CHOICE (log 2), safe. -/
opaque cos : F32 → F32

/-- SQRT, a configuration function with no stated value (00_scope section 6, U13). DESIGN CHOICE (log 2), safe. -/
opaque sqrt : F32 → F32

/-- Free value: sign and payload of the quiet NaN that a binary32 operation on these operands gives (log 3), safe. -/
opaque nanBits : NumOp → F32 → F32 → BitVec 23

/-- Free value: `min` or `max` of two operands one of which is a NaN (log 4), safe. -/
opaque minMaxOfNaN : NumOp → F32 → F32 → F32

/-- Free value: what `clamp` gives for a NaN, before it is brought within the bounds (log 4), safe. -/
opaque clampOfNaN : F32 → F32 → F32 → F32

/-- Free value: whether `min` or `max` of two zeros of unlike sign gives its second operand (log 4), safe. -/
opaque minMaxTakesSecond : NumOp → F32 → F32 → Bool

/-- Free value: the duty, before it is brought into [0, max_duty], that a NaN gives (log 5), safe. -/
opaque dutyOfNaN : F32 → Nat → Nat

/-- Free value: the environment's draw for the tick of this number (U16 to U18), used where ENV.ticks lists none (log 10), safe. -/
opaque drawTick : Nat → TickInput

end Config

/-- The HALL_MAP default (00_scope R6). -/
def defaultHallMap : HallMap := ⟨0, 2, 1, 4, 5, 3, by decide⟩

/-- PAR at the spec's defaults (00_scope R5; SV_K = SQRT3, 43_svpwm R174; TEST_PORT_EN as 95_test_vectors section 0). DESIGN
CHOICE (log 7): unsafe for claims about `State.reset` alone. -/
def defaultPar : Par where
  clockHz := 0x4D221FE8#32
  wCnt := 32
  wTs := 32
  ovfPeriod := 65536
  stallLimit := 2600
  wStall := 16
  tCtrl := 0x39D1B717#32
  testPortEn := true
  wDuty := 16
  hallMap := defaultHallMap
  svK := 0x3FDDB3D7#32

/-- TV-CFG, the configuration record of 95_test_vectors section 0. DESIGN CHOICE (log 7): unsafe for claims about `State.reset`
alone. -/
def defaultCfg : Cfg where
  polePairs := 2
  alpha := 0x3F000000#32
  interpEn := false
  interpMinRpm := 0x3F800000#32
  electricalOffset := 0x00000000#32
  directionInversed := false
  kp := 0x3CA3D70A#32
  ki := 0x3F000000#32
  piOutLimit := 0x40C00000#32
  vLimit := 0x40C00000#32
  maxDuty := 100
  olInitRpm := 0x42C80000#32
  olTargetRpm := 0x43C80000#32
  olAccel := 0x447A0000#32
  olDuty := 0x3E4CCCCD#32
  rampRate := 0x447A0000#32
  zeroEpsRpm := 0x3F800000#32
  calTorque := 0x3E4CCCCD#32

end Sys2Proof
end

