-- ==== Sys2Proof/Machine/Num.lean ====
section
/-! DEFINITION. The numeric domain F32, the default of NUM: IEEE 754 binary32 with round to nearest, ties to even (00_scope section
6, G7), and the notation of 00_scope section 6 (`abs`, `min`, `max`, `clamp`, `floor`, `round`). An operation computes the exact
value with `Nat` and `Int` and rounds it once. -/

namespace Sys2Proof.Machine

/-! ### Fields and classes of a pattern -/

/-- The sign bit. -/
def fNegative (x : F32) : Bool := x.msb

/-- The exponent field, 0 to 255. -/
def fExponent (x : F32) : Nat := (x.extractLsb' 23 8).toNat

/-- The fraction field. -/
def fFraction (x : F32) : Nat := (x.extractLsb' 0 23).toNat

/-- Neither a NaN nor an infinity (the value check of 60_exceptions R298 and 10_state R35). -/
def fIsFinite (x : F32) : Bool := fExponent x != 255

def fIsNaN (x : F32) : Bool := fExponent x == 255 && fFraction x != 0

def fIsInf (x : F32) : Bool := fExponent x == 255 && fFraction x == 0

def fIsZero (x : F32) : Bool := x.extractLsb' 0 31 == 0#31

/-- The integer significand of a finite value: its value is `± fMantissa x · 2 ^ fScale x`. -/
def fMantissa (x : F32) : Nat :=
  if fExponent x = 0 then fFraction x else fFraction x + 2 ^ 23

/-- The exponent of the last bit of a finite value's significand. -/
def fScale (x : F32) : Int := (max (fExponent x) 1 : Nat) - 150

/-- The signed significand of a finite value. -/
def fSigned (x : F32) : Int := if fNegative x then -(fMantissa x : Int) else fMantissa x

/-! ### Building a pattern -/

/-- Sign and 31-bit magnitude. -/
def fBuild (negative : Bool) (magnitude : Nat) : F32 := BitVec.ofBool negative ++ BitVec.ofNat 31 magnitude

def fZero (negative : Bool) : F32 := fBuild negative 0

def fInf (negative : Bool) : F32 := fBuild negative 0x7F800000

/-- The NaN an operation gives: quiet, its sign and payload free (log 3; PRESUMED quiet, as IEEE 754 has it). -/
def fNaN (op : NumOp) (x y : F32) : F32 :=
  let b := Config.nanBits op x y
  b.extractLsb' 22 1 ++ 0x1FF#9 ++ b.extractLsb' 0 22

/-- `m / 2 ^ d` as an integer, round to nearest, ties to even; `m · 2 ^ (-d)` exactly where `d ≤ 0`. -/
def shiftRightEven (m : Nat) (d : Int) : Nat :=
  if d ≤ 0 then m * 2 ^ (-d).toNat
  else
    let p := 2 ^ d.toNat
    let q := m / p
    let r := m % p
    if 2 * r > p ∨ (2 * r = p ∧ q % 2 = 1) then q + 1 else q

/-- The binary32 nearest to `± m · 2 ^ e`, ties to even, overflow to infinity. The significand's last bit is placed at
`max (e + bit length − 24) (−149)`; a carry out of the significand runs into the exponent field. -/
def fRound (negative : Bool) (m : Nat) (e : Int) : F32 :=
  if m = 0 then fZero negative
  else
    let q : Int := max (e + m.log2 - 23) (-149)
    let magnitude := (q + 149).toNat * 2 ^ 23 + shiftRightEven m (q - e)
    if magnitude < 0x7F800000 then fBuild negative magnitude else fInf negative

/-! ### Arithmetic -/

/-- `−x`: the sign bit inverted. -/
def fNeg (x : F32) : F32 := x ^^^ 0x80000000#32

/-- `abs(x)`: the sign bit cleared. -/
def fAbs (x : F32) : F32 := x &&& 0x7FFFFFFF#32

/-- The sum of two patterns that are not NaN, the NaN of an invalid sum being `nan`. -/
def fSumWith (nan : F32) (x y : F32) : F32 :=
  if fIsInf x then (if fIsInf y && fNegative x != fNegative y then nan else x)
  else if fIsInf y then y
  else
    let e := min (fScale x) (fScale y)
    let sum := fSigned x * 2 ^ (fScale x - e).toNat + fSigned y * 2 ^ (fScale y - e).toNat
    if sum = 0 then fZero (fNegative x && fNegative y) else fRound (decide (sum < 0)) sum.natAbs e

/-- `x + y`. -/
def fAdd (x y : F32) : F32 :=
  if fIsNaN x || fIsNaN y then fNaN .add x y else fSumWith (fNaN .add x y) x y

/-- `x − y`. -/
def fSub (x y : F32) : F32 :=
  if fIsNaN x || fIsNaN y then fNaN .sub x y else fSumWith (fNaN .sub x y) x (fNeg y)

/-- `x × y`. -/
def fMul (x y : F32) : F32 :=
  let negative := fNegative x != fNegative y
  if fIsNaN x || fIsNaN y || (fIsInf x && fIsZero y) || (fIsZero x && fIsInf y) then fNaN .mul x y
  else if fIsInf x || fIsInf y then fInf negative
  else fRound negative (fMantissa x * fMantissa y) (fScale x + fScale y)

/-- `x / y`. The quotient is taken to at least 27 bits, with the remainder in one more bit, before it is rounded. -/
def fDiv (x y : F32) : F32 :=
  let negative := fNegative x != fNegative y
  if fIsNaN x || fIsNaN y || (fIsInf x && fIsInf y) || (fIsZero x && fIsZero y) then fNaN .div x y
  else if fIsInf x || fIsZero y then fInf negative
  else if fIsInf y then fZero negative
  else
    let n := fMantissa x * 2 ^ 50
    let q := n / fMantissa y
    let sticky := if n % fMantissa y = 0 then 0 else 1
    fRound negative (2 * q + sticky) (fScale x - fScale y - 51)

/-- `Num(n)`: the binary32 nearest to an integer. DEDUCED (log 16). -/
def fOfNat (n : Nat) : F32 := fRound false n 0

/-! ### Comparison -/

/-- The order of the patterns that are not NaN, as integers; the two zeros are equal. -/
def fOrder (x : F32) : Int :=
  let magnitude : Int := (x.extractLsb' 0 31).toNat
  if fNegative x then -magnitude else magnitude

/-- `x < y`; false where either is a NaN. -/
def fLt (x y : F32) : Bool := !fIsNaN x && !fIsNaN y && decide (fOrder x < fOrder y)

/-- `x ≤ y`; false where either is a NaN. -/
def fLe (x y : F32) : Bool := !fIsNaN x && !fIsNaN y && decide (fOrder x ≤ fOrder y)

/-- `min` or `max` where neither operand is the greater: the free choices of log 4. -/
def minMaxTie (op : NumOp) (x y : F32) : F32 :=
  if x = y then x else if Config.minMaxTakesSecond op x y then y else x

/-- `max(x, y)`. -/
def fMax (x y : F32) : F32 :=
  if fIsNaN x || fIsNaN y then Config.minMaxOfNaN .max x y
  else if fLt x y then y
  else if fLt y x then x
  else minMaxTie .max x y

/-- `min(x, y)`. -/
def fMin (x y : F32) : F32 :=
  if fIsNaN x || fIsNaN y then Config.minMaxOfNaN .min x y
  else if fLt x y then x
  else if fLt y x then y
  else minMaxTie .min x y

/-- What `clamp` gives for a NaN: free within the bounds (log 4; 44_pi: "The output always lies in [out_min, out_max]"). -/
def clampedNaN (v lo hi : F32) : F32 :=
  let free := Config.clampOfNaN v lo hi
  if fLe lo free && fLe free hi then free else lo

/-- `clamp(v, lo, hi) = min(max(v, lo), hi)` (00_scope section 6), the value of a NaN between bounds `lo ≤ hi` apart. -/
def fClamp (v lo hi : F32) : F32 :=
  if fIsNaN v && fLe lo hi then clampedNaN v lo hi else fMin (fMax v lo) hi

/-! ### Integers of a value -/

/-- `floor(v)`, the greatest integer ≤ v, as a Num. A zero, an infinity and a value with no fraction stay as they are
(PRESUMED, log 6). -/
def fFloor (x : F32) : F32 :=
  if fIsNaN x then fNaN .floor x x
  else if fIsInf x || fIsZero x || decide (0 ≤ fScale x) then x
  else
    let p := 2 ^ (-fScale x).toNat
    if fNegative x then fRound true ((fMantissa x + (p - 1)) / p) 0
    else fRound false (fMantissa x / p) 0

/-- `round(v)` of a finite value: the nearest integer, halves away from zero (00_scope section 6, D3). -/
def roundAway (x : F32) : Int :=
  let n : Nat :=
    if 0 ≤ fScale x then fMantissa x * 2 ^ (fScale x).toNat
    else
      let p := 2 ^ (-fScale x).toNat
      (2 * fMantissa x + p) / (2 * p)
  if fNegative x then -(n : Int) else n

/-- `clamp(round(v), 0, max)` (43_svpwm R175, 45_openloop R217). An infinity is clamped like any value outside the range; what a
NaN gives is free within the range (log 5). -/
def clampRound (v : F32) (max : Nat) : Nat :=
  if fIsNaN v then Config.dutyOfNaN v max % (max + 1)
  else if fIsInf v then (if fNegative v then 0 else max)
  else min (roundAway v).toNat max

/-! ### The domain -/

/-- TWO_PI, the binary32 nearest to 2π (00_scope section 6). -/
def twoPi : F32 := 0x40C90FDB#32

/-- SQRT3, the binary32 nearest to √3 (00_scope section 6). -/
def sqrt3 : F32 := 0x3FDDB3D7#32

/-- The pattern of a value given by its fields. -/
def finitePattern (v : FiniteF32) : F32 :=
  BitVec.ofBool v.negative ++ BitVec.ofNat 8 v.exponent.val ++ v.fraction

/-- NUM = F32 (00_scope R5): a Num is its binary32 pattern, so registers show and take it as it is (30_encoding R103). -/
def f32Num : NumDomain F32 FiniteF32 where
  num0 := 0x00000000#32
  num1 := 0x3F800000#32
  num2 := 0x40000000#32
  num60 := 0x42700000#32
  twoPi := twoPi
  sqrt3 := sqrt3
  torqueMin := 0x3DCCCCCD#32
  torqueMax := 0x3F000000#32
  ofNat := fOfNat
  ofBits := id
  bits32 := id
  add := fAdd
  sub := fSub
  mul := fMul
  div := fDiv
  neg := fNeg
  abs := fAbs
  lt := fLt
  le := fLe
  max := fMax
  clamp := fClamp
  floor := fFloor
  clampRound := clampRound
  isFinite := fIsFinite
  sin := Config.sin
  cos := Config.cos
  sqrt := Config.sqrt
  ofFinite := finitePattern
  drawTick := Config.drawTick

end Sys2Proof.Machine
end

