-- ==== Sys2Proof/Machine/Units.lean ====
section
/-! DEFINITION. The unit records of the architectural state (10_state section 2), as plain data. A counter or a duty of a width
that PAR gives is a natural number, kept below its bound by the one operation that advances it (40_capture) or forms it
(43_svpwm R175). -/

namespace Sys2Proof.Machine

/-- HallCapture (10_state R23). -/
structure Cap where
  hallLines : HallCode
  rawState : HallCode
  /-- u(W_CNT). -/
  periodCycles : Nat
  /-- u(W_TS). -/
  captureTimestamp : Nat
  timedOut : Bool
  /-- u(W_STALL). -/
  stallCount : Nat
  /-- u(W_CNT). -/
  cnt : Nat
  /-- u(W_TS). -/
  tb : Nat
  deriving DecidableEq, Repr

/-- EST.dir: +1 or −1 (10_state R24). -/
inductive Dir where
  | forward
  | backward
  deriving DecidableEq, Repr

/-- HallPositionEstimator (10_state R24). `prevIndex` is the rule's {NONE, 0..5}. -/
structure Est (N : Type := F32) where
  prevIndex : Option (Fin 6)
  base : Nat
  dir : Dir
  speed : N
  mech : N
  elec : N
  offset : N
  dirInv : Bool
  valid : Bool
  deriving DecidableEq, Repr

/-- SpeedController (10_state R25). -/
structure Pi (N : Type := F32) where
  kp : N
  ki : N
  integral : N
  lastOutput : N
  outMin : N
  outMax : N
  deriving DecidableEq, Repr

/-- OpenLoopStarter (10_state R26). -/
structure Ol (N : Type := F32) where
  initRpm : N
  targetRpm : N
  accel : N
  duty : N
  step : Fin 6
  elapsed : N
  period : N
  minPeriod : N
  k : N
  deriving DecidableEq, Repr

/-- The ramp limiter (10_state R27). -/
structure Ramp (N : Type := F32) where
  rpm : N
  deriving DecidableEq, Repr

/-- ControlMode (10_state R28, R33). -/
inductive Mode where
  | openLoop
  | closedLoopFoc
  | calibration
  deriving DecidableEq, Repr

/-- ControlModeCoordinator (10_state R28). -/
structure Co (N : Type := F32) where
  mode : Mode
  calReq : Bool
  vq : N
  hallValid : Bool
  lastFault : BitVec 4
  fault : BitVec 16
  calDone : Bool
  calSuccess : Bool
  calDirInv : Bool
  calOffset : N
  calTorqueReq : N
  deriving DecidableEq, Repr

/-- The PWM output port (10_state R29); `phaseEn` bit 0 = U, 1 = V, 2 = W; each duty a u(W_DUTY). -/
structure Pwm where
  moe : Bool
  phaseEn : BitVec 3
  dutyU : Nat
  dutyV : Nat
  dutyW : Nat
  deriving DecidableEq, Repr

/-- The host-written shared state (10_state R30). -/
structure Hreg (N : Type := F32) where
  en : Bool
  targetRpm : N
  kp : N
  ki : N
  calTorque : N
  deriving DecidableEq, Repr

/-- The operand and result registers of the test port (10_state R22, R31). -/
structure Opr where
  a0 : Word
  a1 : Word
  a2 : Word
  a3 : Word
  res0 : Word
  res1 : Word
  res2 : Word
  deriving DecidableEq, Repr

/-- A tick's or a test-port update's view of CAP (41_estimator R130), with the time `now`. -/
structure Snapshot where
  raw : HallCode
  period : Nat
  timedOut : Bool
  ts : Nat
  now : Nat
  deriving DecidableEq, Repr

/-- The argument of `CalStep` (46_coordinator R246). -/
structure CalStepIn (N : Type := F32) where
  snapshot : Snapshot
  mech : N
  elec : N
  valid : Bool
  dt : N
  polePairs : Nat
  torque : N
  deriving DecidableEq, Repr

/-- An SVPWM sector, 1 to 6 (30_encoding R101, 43_svpwm R173). -/
inductive Sector where
  | s1
  | s2
  | s3
  | s4
  | s5
  | s6
  deriving DecidableEq, Repr

/-- The fault causes that are raised, codes 1 to 7 (60_exceptions R281). -/
inductive Cause where
  | hallInvalid
  | captureTimeout
  | calFailed
  | illegalOp
  | illegalAccess
  | badValue
  | voltInhibit
  deriving DecidableEq, Repr

/-- The environment's side of the ports: the MODEL's own fields, not the spec's state (logs 8 to 10, 13, 15, 28). -/
structure Env (N : Type := F32) (F : Type := FiniteF32) where
  /-- Command words presented and not yet consumed (20_memory R77, 30_encoding R97). -/
  stream : List Word
  /-- What each coming `CTRL_TICK` samples. -/
  ticks : List (TickInput N F)
  /-- The number of ticks so far, which indexes the free draw where `ticks` is empty. -/
  tickNo : Nat
  /-- The record at the configuration input, sampled by the next reset (70_reset_and_hazards R311). -/
  cfgIn : Cfg N
  /-- The records presented there for the resets after that, in order: a reload of ConfigStore (R310). Where none is left the
  input keeps its record (log 28). -/
  cfgs : List (Cfg N)
  /-- The value the last `REG_READ` returned to its issuer (46_coordinator R252). -/
  readValue : Word
  /-- The argument of the last `CalReset` (46_coordinator R246). -/
  calTorque : N
  /-- The argument of the last `CalStep`, none before the first (46_coordinator R246). -/
  calStepIn : Option (CalStepIn N)
  deriving DecidableEq, Repr

end Sys2Proof.Machine
end

