-- ==== Sys2Proof/Machine/Reset.lean ====
section
/-! DEFINITION. The angle normalisation, the preconditions on CFG, and the reset value of every unit record (10_state R55,
70_reset_and_hazards R311), over any numeric domain. -/

namespace Sys2Proof.Machine

variable {N F : Type}

/-- `N6 = 6 · pole_pairs` (41_estimator). -/
def n6 (cfg : Cfg N) : Nat := 6 * cfg.polePairs

/-- `norm(v)` (41_estimator R131), step by step as the rule has it (log 18 on large magnitudes under F32). -/
def normAngle (d : NumDomain N F) (v : N) : N :=
  let r := d.sub v (d.mul d.twoPi (d.floor (d.div v d.twoPi)))
  let r := if d.lt r d.num0 then d.add r d.twoPi else r
  if d.le d.twoPi r then d.num0 else r

/-- `lo ≤ v ≤ hi`. -/
def between (d : NumDomain N F) (lo v hi : N) : Bool := d.le lo v && d.le v hi

/-- The preconditions of 00_scope R7 on CFG, for duties of W_DUTY bits. A field without a stated range is not checked (log 8). -/
def cfgValid (d : NumDomain N F) (wDuty : Nat) (cfg : Cfg N) : Bool :=
  decide (1 ≤ cfg.polePairs ∧ cfg.polePairs ≤ 255)
    && (d.lt d.num0 cfg.alpha && d.le cfg.alpha d.num1)
    && (d.le d.num0 cfg.electricalOffset && d.lt cfg.electricalOffset d.twoPi)
    && d.lt d.num0 cfg.piOutLimit
    && d.le d.num0 cfg.vLimit
    && decide (1 ≤ cfg.maxDuty ∧ cfg.maxDuty < 2 ^ wDuty)
    && d.lt d.num0 cfg.olInitRpm
    && d.lt d.num0 cfg.olTargetRpm
    && d.le d.num0 cfg.olAccel
    && between d d.num0 cfg.olDuty d.num1
    && d.le d.num0 cfg.rampRate
    && d.le d.num0 cfg.zeroEpsRpm
    && between d d.torqueMin cfg.calTorque d.torqueMax

/-- The default configuration lies in the ranges (00_scope R7). -/
theorem defaultCfg_valid : cfgValid f32Num defaultPar.wDuty defaultCfg = true := by decide +kernel

/-- The step period of a speed, and the speed of a step period: `60 / (x · N6)` (45_openloop R210). -/
def stepPeriod (d : NumDomain N F) (cfg : Cfg N) (x : N) : N := d.div d.num60 (d.mul x (d.ofNat (n6 cfg)))

/-- The decay factor (45_openloop R211). -/
def decayFactor (d : NumDomain N F) (cfg : Cfg N) (initRpm accel : N) : N :=
  d.div initRpm (d.add initRpm (d.mul accel (stepPeriod d cfg initRpm)))

/-- The range check of `OL_INIT` (45_openloop R212). -/
def olParamsOk (d : NumDomain N F) (initRpm targetRpm accel duty : N) : Bool :=
  d.lt d.num0 initRpm && d.lt d.num0 targetRpm && d.le d.num0 accel && between d d.num0 duty d.num1

/-- The body of `OL_INIT` after its range check (45_openloop R212). -/
def olStart (d : NumDomain N F) (cfg : Cfg N) (initRpm targetRpm accel duty : N) : Ol N where
  initRpm := initRpm
  targetRpm := targetRpm
  accel := accel
  duty := duty
  step := 0
  elapsed := d.num0
  period := stepPeriod d cfg initRpm
  minPeriod := stepPeriod d cfg targetRpm
  k := decayFactor d cfg initRpm accel

/-- CAP after reset with the given line levels (10_state R55, R56). -/
def capReset (lines : HallCode) : Cap where
  hallLines := lines
  rawState := 0#3
  periodCycles := 0
  captureTimestamp := 0
  timedOut := false
  stallCount := 0
  cnt := 0
  tb := 0

/-- EST after reset (10_state R55). -/
def estPowerOn (d : NumDomain N F) (cfg : Cfg N) : Est N where
  prevIndex := none
  base := 0
  dir := .forward
  speed := d.num0
  mech := d.num0
  elec := normAngle d (d.sub d.num0 cfg.electricalOffset)
  offset := cfg.electricalOffset
  dirInv := cfg.directionInversed
  valid := false

/-- PI after reset (10_state R55). -/
def piPowerOn (d : NumDomain N F) (cfg : Cfg N) : Pi N where
  kp := cfg.kp
  ki := cfg.ki
  integral := d.num0
  lastOutput := d.num0
  outMin := d.neg cfg.piOutLimit
  outMax := cfg.piOutLimit

/-- OL after reset: as `OL_INIT` of the CFG values (10_state R55). -/
def olPowerOn (d : NumDomain N F) (cfg : Cfg N) : Ol N :=
  olStart d cfg cfg.olInitRpm cfg.olTargetRpm cfg.olAccel cfg.olDuty

/-- CO after reset (10_state R55). -/
def coPowerOn (d : NumDomain N F) (cfg : Cfg N) : Co N where
  mode := .openLoop
  calReq := false
  vq := d.num0
  hallValid := false
  lastFault := 0#4
  fault := 0#16
  calDone := false
  calSuccess := false
  calDirInv := false
  calOffset := d.num0
  calTorqueReq := cfg.calTorque

/-- The PWM port off: `PwmOff()` (46_coordinator R234), and its reset value (10_state R55). -/
def pwmOffPort : Pwm where
  moe := false
  phaseEn := 0#3
  dutyU := 0
  dutyV := 0
  dutyW := 0

/-- HREG after reset (10_state R55). -/
def hregPowerOn (d : NumDomain N F) (cfg : Cfg N) : Hreg N where
  en := false
  targetRpm := d.num0
  kp := cfg.kp
  ki := cfg.ki
  calTorque := cfg.calTorque

/-- The operand and result registers after reset (10_state R55). -/
def oprPowerOn : Opr := ⟨0#32, 0#32, 0#32, 0#32, 0#32, 0#32, 0#32⟩

/-- The environment's record with nothing presented but a configuration record, and nothing returned (logs 9, 10, 13, 15;
log 28: the record stands there for every later reset, the MODEL's choice). -/
def envIdle (d : NumDomain N F) (cfg : Cfg N) : Env N F where
  stream := []
  ticks := []
  tickNo := 0
  cfgIn := cfg
  cfgs := []
  readValue := 0#32
  calTorque := d.num0
  calStepIn := none

/-- The environment's record after a reset has sampled the configuration input: the next presented record stands there, or
the sampled one where none is left. Which record a later reset finds is left to the environment (70_reset_and_hazards R310, R311):
this order is the MODEL's choice (log 28). -/
def popCfg (env : Env N F) : Env N F :=
  { env with cfgIn := env.cfgs.headD env.cfgIn, cfgs := env.cfgs.tail }

end Sys2Proof.Machine
end

