-- ==== Sys2Proof/Machine/State.lean ====
section
/-! DEFINITION. The machine's state as plain data (10_state), the reasons a step can stop, and the state after reset. -/

namespace Sys2Proof.Machine

/-- The architectural state (10_state R20), with the parameters, the sampled configuration and the environment's side of the
ports, which the spec passes to the step from outside (log 7). `State` alone is the state under NUM = F32, the default;
`State ℝ ℝ` is the state under NUM = REAL (log 1). -/
structure State (N : Type := F32) (F : Type := FiniteF32) where
  par : Par N
  cfg : Cfg N
  cap : Cap
  est : Est N
  pi : Pi N
  ol : Ol N
  ramp : Ramp N
  co : Co N
  pwm : Pwm
  hreg : Hreg N
  opr : Opr
  env : Env N F
  deriving DecidableEq, Repr

/-- Why the machine stops. No operation of the command port stops it (60_exceptions R280, 70_reset_and_hazards R329). -/
inductive Fault where
  /-- Raised by the byte-addressed adapter (`memRead`, `memWrite`) for an aligned word address above 1020, which 20_memory R71
  does not map. Safe: the spec gives no effect (log 19). -/
  | noSuchAddress (addr : Nat)
  deriving DecidableEq, Repr

/-- Why the model has no meaning for an input. -/
inductive Refusal where
  /-- Raised by `exec` for an operation the model does not cover: by no arm now. Safe. -/
  | notModelled (mnemonic : String)
  /-- Raised by a reset, at power-on or by `RESET`, where the record at the configuration input violates 00_scope R7:
  70_reset_and_hazards R311 says "refuse (no model state)". Safe. -/
  | cfgOutOfRange
  deriving DecidableEq, Repr

/-- The answer of a step. -/
abbrev Result (N : Type := F32) (F : Type := FiniteF32) := Host.Outcome (State N F) Fault Refusal

variable {N F : Type}

/-- Every field at its reset value (10_state R55), for a configuration in its ranges and given line levels; the parameters and the
environment's record are not touched. The proof `_legal` is the `require` of 70_reset_and_hazards R311: for any other configuration
there is no such state. -/
def State.resetWith (d : NumDomain N F) (par : Par N) (cfg : Cfg N) (_legal : cfgValid d par.wDuty cfg = true) (lines : HallCode)
    (env : Env N F) : State N F where
  par := par
  cfg := cfg
  cap := capReset lines
  est := estPowerOn d cfg
  pi := piPowerOn d cfg
  ol := olPowerOn d cfg
  ramp := ⟨d.num0⟩
  co := coPowerOn d cfg
  pwm := pwmOffPort
  hreg := hregPowerOn d cfg
  opr := oprPowerOn
  env := env

/-- The machine right after reset under NUM = F32: power-on with the spec's default parameters and test configuration, lines drawn
as 0b000. DESIGN CHOICE (logs 7, 14): claims are stated over `State.powerOn`, for every parameter, configuration and line level. -/
def State.reset : State :=
  State.resetWith f32Num defaultPar defaultCfg defaultCfg_valid 0#3 (envIdle f32Num defaultCfg)

/-! ### One update per record -/

def State.withCap (s : State N F) (v : Cap) : State N F := { s with cap := v }
def State.withEst (s : State N F) (v : Est N) : State N F := { s with est := v }
def State.withPi (s : State N F) (v : Pi N) : State N F := { s with pi := v }
def State.withOl (s : State N F) (v : Ol N) : State N F := { s with ol := v }
def State.withRamp (s : State N F) (v : N) : State N F := { s with ramp := ⟨v⟩ }
def State.withCo (s : State N F) (v : Co N) : State N F := { s with co := v }
def State.withPwm (s : State N F) (v : Pwm) : State N F := { s with pwm := v }
def State.withHreg (s : State N F) (v : Hreg N) : State N F := { s with hreg := v }
def State.withOpr (s : State N F) (v : Opr) : State N F := { s with opr := v }
def State.withEnv (s : State N F) (v : Env N F) : State N F := { s with env := v }

end Sys2Proof.Machine
end

