-- ==== Sys2Proof/Machine/Ops.lean ====
section
/-! DEFINITION. Operations every unit shares: recording a fault (the block's whole exception mechanism), the gating of the unit
operations, and the draw of a tick's inputs. -/

namespace Sys2Proof.Machine

variable {N F : Type}

/-- The 4-bit code of a cause (60_exceptions R281). -/
def causeCode : Cause → BitVec 4
  | .hallInvalid => 1#4
  | .captureTimeout => 2#4
  | .calFailed => 3#4
  | .illegalOp => 4#4
  | .illegalAccess => 5#4
  | .badValue => 6#4
  | .voltInhibit => 7#4

/-- The record a raise makes in CO: bit c of `fault`, and `last_fault` (60_exceptions R283). -/
def coRaise (c : Cause) (co : Co N) : Co N :=
  { co with
    fault := co.fault ||| (1#16 <<< (causeCode c).toNat)
    lastFault := causeCode c }

/-- `raise Fault(c)` (60_exceptions R283): the record in CO and nothing else. This is taking an exception on this block: there is
no handler, vector, saved counter or mode change (R280, R288), and so no return (R289). -/
def raiseFault (c : Cause) (s : State N F) : State N F := s.withCo (coRaise c s.co)

/-- `raise Fault(c)` where a condition holds. -/
def raiseIf (b : Bool) (c : Cause) (s : State N F) : State N F := if b then raiseFault c s else s

/-- A unit operation of the test port: its body where TEST_PORT_EN = 1, else ILLEGAL_OP and no other effect (30_encoding R95). -/
def unitOp (body : State N F → State N F) (s : State N F) : Result N F :=
  .next (if s.par.testPortEn then body s else raiseFault .illegalOp s)

/-- The body of an operation behind its value check: where the check fails, BAD_VALUE and no other effect (60_exceptions R298). -/
def checked (ok : Bool) (body : State N F → State N F) (s : State N F) : State N F :=
  if ok then body s else raiseFault .badValue s

/-- What the coming tick samples: the first listed input, or the environment's free draw (log 10). -/
def tickInput (d : NumDomain N F) (env : Env N F) : TickInput N F :=
  match env.ticks with
  | inp :: _ => inp
  | [] => d.drawTick env.tickNo

/-- The environment's record after a tick has taken its input. -/
def popTick (env : Env N F) : Env N F :=
  { env with ticks := env.ticks.tail, tickNo := env.tickNo + 1 }

/-- The environment's record after `words` are what is left of the command words. -/
def setStream (words : List Word) (env : Env N F) : Env N F := { env with stream := words }

/-- The command words as they are after an operation is taken from the port. -/
def State.withStream (s : State N F) (words : List Word) : State N F := s.withEnv (setStream words s.env)

end Sys2Proof.Machine
end

