-- ==== Sys2Proof/Machine/Operands.lean ====
section
/-! DEFINITION. The operand forms (30_encoding R92): a format's field zero-extended, an operand register read as binary32 or as
u32, and the result registers written. A result is written as `bits32(v)` or as a u32 (`u32Word`). -/

namespace Sys2Proof.Machine

variable {N F : Type}

/-- `n` of format C as an unsigned integer (30_encoding R92). -/
def cyclesOperand (n : BitVec 24) : Nat := n.toNat

/-- `Ak` read as u32 (30_encoding R92). -/
def u32Operand (a : Word) : Nat := a.toNat

/-- The value check on an operand read as binary32: not a NaN and not an infinity (60_exceptions R298). -/
def operandOk (a : Word) : Bool := fIsFinite a

/-- `zext_32(n)`, and a u32 result: the low 32 bits where a width of PAR is greater (log 17). -/
def u32Word (n : Nat) : Word := BitVec.ofNat 32 n

/-- A duty in the 16-bit field a register gives it (10_state R46, R47): its low bits where W_DUTY is greater (log 17). -/
def dutyField (duty : Nat) : BitVec 16 := BitVec.ofNat 16 duty

/-- RES0 written. -/
def setRes0 (v : Word) (s : State N F) : State N F := s.withOpr { s.opr with res0 := v }

/-- RES0 and RES1 written. -/
def setRes01 (v0 v1 : Word) (s : State N F) : State N F := s.withOpr { s.opr with res0 := v0, res1 := v1 }

/-- RES0, RES1 and RES2 written. -/
def setRes012 (v0 v1 v2 : Word) (s : State N F) : State N F := s.withOpr { s.opr with res0 := v0, res1 := v1, res2 := v2 }

end Sys2Proof.Machine
end

