-- ==== Sys2Proof/Machine/Flags.lean ====
section
/-! DEFINITION. The status flags (10_state R32): the validity of a capture, the open-loop target, the STATUS word. -/

namespace Sys2Proof.Machine

variable {N F : Type}

/-- `hall_valid(raw, timed_out)` (40_capture R114). -/
def hallValid (raw : HallCode) (timedOut : Bool) : Bool :=
  decide (raw ≠ 0#3 ∧ raw ≠ 7#3) && !timedOut

/-- A raw code in {1..6} (40_capture R114). -/
def rawCodeOk (raw : HallCode) : Bool := decide (raw ≠ 0#3 ∧ raw ≠ 7#3)

/-- OL reached: `OL.period ≤ OL.min_period`, derived and not stored (45_openloop R215, 10_state R32). -/
def olReached (d : NumDomain N F) (ol : Ol N) : Bool := d.le ol.period ol.minPeriod

/-- ControlMode in two bits (10_state R33). -/
def modeBits : Mode → BitVec 2
  | .openLoop => 0#2
  | .closedLoopFoc => 1#2
  | .calibration => 2#2

/-- The STATUS word (10_state R41), most significant field first. -/
def statusWord (d : NumDomain N F) (s : State N F) : Word :=
  0#12 ++ s.co.lastFault ++ 0#1 ++ BitVec.ofBool (olReached d s.ol) ++ BitVec.ofBool s.co.calDirInv
    ++ BitVec.ofBool s.co.calSuccess ++ BitVec.ofBool s.co.calDone ++ s.cap.rawState ++ BitVec.ofBool s.cap.timedOut
    ++ BitVec.ofBool s.co.hallValid ++ s.pwm.phaseEn ++ BitVec.ofBool s.pwm.moe ++ modeBits s.co.mode

/-- The CTRL word as it reads: EN, CAL_REQ, and 0 elsewhere (10_state R34). -/
def ctrlWord (s : State N F) : Word :=
  0#30 ++ BitVec.ofBool s.co.calReq ++ BitVec.ofBool s.hreg.en

end Sys2Proof.Machine
end

