-- ==== Sys2Proof/Machine/Capture.lean ====
section
/-! DEFINITION. HallCapture (40_capture): HALL_IN, OVF_TICK, CLK_ADV, and the torn snapshot of a tick. -/

namespace Sys2Proof.Machine

variable {N F : Type}

/-- The exclusive-OR of the three lines (40_capture R110). -/
def parity (v : HallCode) : Bool := (v.getLsbD 0 ^^ v.getLsbD 1) ^^ v.getLsbD 2

/-- A qualifying edge: the parity of the lines changes (40_capture R110). -/
def isEdge (old new : HallCode) : Bool := parity new != parity old

/-- CAP after the lines become `lines` (40_capture R111): on a qualifying edge all fields are written in one step. -/
def capHallIn (lines : HallCode) (c : Cap) : Cap :=
  if isEdge c.hallLines lines then
    { c with
      hallLines := lines
      rawState := lines
      periodCycles := c.cnt
      captureTimestamp := c.tb
      cnt := 0
      stallCount := 0
      timedOut := false }
  else { c with hallLines := lines }

/-- The stall counter plus one, saturating at 2^W_STALL − 1 (40_capture R112). -/
def stallNext (wStall n : Nat) : Nat := if n < 2 ^ wStall - 1 then n + 1 else n

/-- CAP after an overflow tick (40_capture R112). -/
def capOvfTick (par : Par N) (c : Cap) : Cap :=
  let n := stallNext par.wStall c.stallCount
  if par.stallLimit < n then { c with stallCount := n, timedOut := true, periodCycles := 0 }
  else { c with stallCount := n }

/-- CAP after `n` clock cycles: each counter wraps at its own width (40_capture R113). -/
def capClkAdv (par : Par N) (n : BitVec 24) (c : Cap) : Cap :=
  { c with
    cnt := (c.cnt + cyclesOperand n) % 2 ^ par.wCnt
    tb := (c.tb + cyclesOperand n) % 2 ^ par.wTs }

/-- CAP after one capture operation. -/
def captureStep (par : Par N) (op : CaptureOp) (c : Cap) : Cap :=
  match op with
  | .hallIn lines => capHallIn lines c
  | .ovfTick => capOvfTick par c
  | .clkAdv n => capClkAdv par n c

/-- CAP after the capture operations of one gap, in order. -/
def captureAll (par : Par N) : List CaptureOp → Cap → Cap
  | [], c => c
  | op :: ops, c => captureAll par ops (captureStep par op c)

/-- The five reads of a tick's snapshot, in the order of 70_reset_and_hazards R320, with the capture operations of the four gaps
between them; and CAP after the last read. -/
def takeSnapshot (par : Par N) (inp : TickInput N F) (c : Cap) : Snapshot × Cap :=
  let c1 := captureAll par inp.gap1 c
  let c2 := captureAll par inp.gap2 c1
  let c3 := captureAll par inp.gap3 c2
  let c4 := captureAll par inp.gap4 c3
  (⟨c.rawState, c1.periodCycles, c2.timedOut, c3.captureTimestamp, c4.tb⟩, c4)

/-- The snapshot of the test port: all five values in one step (41_estimator R130). -/
def liveSnapshot (c : Cap) : Snapshot :=
  ⟨c.rawState, c.periodCycles, c.timedOut, c.captureTimestamp, c.tb⟩

/-- The body of HALL_IN (40_capture R111). -/
def opHallIn (lines : HallCode) (s : State N F) : Result N F := .next (s.withCap (capHallIn lines s.cap))

/-- The body of OVF_TICK (40_capture R112). -/
def opOvfTick (s : State N F) : Result N F := .next (s.withCap (capOvfTick s.par s.cap))

/-- The body of CLK_ADV (40_capture R113). -/
def opClkAdv (n : BitVec 24) (s : State N F) : Result N F := .next (s.withCap (capClkAdv s.par n s.cap))

/-! ### Under NUM = F32 -/

/-- HALL_IN (40_capture R111). -/
def execHallIn (lines : HallCode) (s : State) : Result := opHallIn lines s

/-- OVF_TICK (40_capture R112). -/
def execOvfTick (s : State) : Result := opOvfTick s

/-- CLK_ADV (40_capture R113). -/
def execClkAdv (n : BitVec 24) (s : State) : Result := opClkAdv n s

end Sys2Proof.Machine
end

