-- ==== Sys2Proof/Machine/Estimator.lean ====
section
/-! DEFINITION. HallPositionEstimator (41_estimator): EST_UPDATE, EST_RESET, EST_SEED_FILTER, EST_SET_OFFSET. -/

namespace Sys2Proof.Machine

variable {N F : Type}

/-- The index of a raw code; 0 and 7 have none (41_estimator R132). -/
def hallIndex (m : HallMap) (raw : HallCode) : Option (Fin 6) :=
  match raw with
  | 1#3 => some m.code1
  | 2#3 => some m.code2
  | 3#3 => some m.code3
  | 4#3 => some m.code4
  | 5#3 => some m.code5
  | 6#3 => some m.code6
  | _ => none

/-- The index of a VALID snapshot (41_estimator R132, 40_capture R114). -/
def snapshotIndex (par : Par N) (snap : Snapshot) : Option (Fin 6) :=
  if hallValid snap.raw snap.timedOut then hallIndex par.hallMap snap.raw else none

/-- EST.dir after an index step (41_estimator R134). `idx - prev` is the difference modulo 6. -/
def dirAfter (prev : Option (Fin 6)) (idx : Fin 6) (dir : Dir) : Dir :=
  match prev with
  | none => dir
  | some p => if idx - p = 1 then .forward else if idx - p = 5 then .backward else dir

/-- EST.base after an index step: the wraps 5→0 and 0→5 (41_estimator R133). -/
def baseAfter (n6 : Nat) (prev : Option (Fin 6)) (idx : Fin 6) (base : Nat) : Nat :=
  match prev with
  | none => base
  | some p =>
    if p = 5 ∧ idx = 0 then (base + 6) % n6
    else if p = 0 ∧ idx = 5 then (base + n6 - 6) % n6
    else base

/-- The sector angle (41_estimator R135); `STEP = TWO_PI / N6`. -/
def sectorAngle (d : NumDomain N F) (cfg : Cfg N) (base : Nat) (idx : Fin 6) : N :=
  normAngle d (d.mul (d.ofNat ((base + idx.val) % n6 cfg)) (d.div d.twoPi (d.ofNat (n6 cfg))))

/-- EST.dir as a Num. -/
def dirNum (d : NumDomain N F) : Dir → N
  | .forward => d.num1
  | .backward => d.neg d.num1

/-- The instantaneous speed (41_estimator R136); a period of 0 is no measurement. -/
def instantSpeed (d : NumDomain N F) (par : Par N) (cfg : Cfg N) (dir : Dir) (period : Nat) : N :=
  if period = 0 then d.num0
  else d.mul (dirNum d dir) (d.div (d.mul (d.div par.clockHz (d.ofNat period)) d.num60) (d.ofNat (n6 cfg)))

/-- The speed filter (41_estimator R137). -/
def filterSpeed (d : NumDomain N F) (cfg : Cfg N) (inst speed : N) : N :=
  d.add (d.mul cfg.alpha inst) (d.mul (d.sub d.num1 cfg.alpha) speed)

/-- `(now − ts) mod 2^W_TS` (41_estimator R138). -/
def cyclesSince (wTs now ts : Nat) : Nat := (((now : Int) - ts) % 2 ^ wTs).toNat

/-- The mechanical angle of a valid update: the sector angle, advanced by the filtered speed where interpolation applies
(41_estimator R138). -/
def mechAngle (d : NumDomain N F) (par : Par N) (cfg : Cfg N) (snap : Snapshot) (sa speed : N) : N :=
  if cfg.interpEn && d.lt cfg.interpMinRpm (d.abs speed) then
    let wMech := d.div (d.mul speed d.twoPi) d.num60
    let tse := d.div (d.ofNat (cyclesSince par.wTs snap.now snap.ts)) par.clockHz
    normAngle d (d.add sa (d.mul wMech tse))
  else sa

/-- The electrical angle (41_estimator R139). -/
def elecAngle (d : NumDomain N F) (cfg : Cfg N) (mech offset : N) : N :=
  normAngle d (d.sub (d.mul mech (d.ofNat cfg.polePairs)) offset)

/-- `EstUpdate(S, now)` (41_estimator R141; the invalid branch R140). -/
def estUpdate (d : NumDomain N F) (par : Par N) (cfg : Cfg N) (snap : Snapshot) (e : Est N) : Est N :=
  match snapshotIndex par snap with
  | none =>
    { e with speed := d.num0, valid := false, elec := elecAngle d cfg e.mech e.offset }
  | some idx =>
    let dir := dirAfter e.prevIndex idx e.dir
    let base := baseAfter (n6 cfg) e.prevIndex idx e.base
    let speed := filterSpeed d cfg (instantSpeed d par cfg dir snap.period) e.speed
    let mech := mechAngle d par cfg snap (sectorAngle d cfg base idx) speed
    { e with
      prevIndex := some idx
      base := base
      dir := dir
      speed := speed
      mech := mech
      elec := elecAngle d cfg mech e.offset
      valid := true }

/-- `reset()` of the estimator (41_estimator R142): offset and dir_inv are kept. -/
def estReset (d : NumDomain N F) (e : Est N) : Est N :=
  { e with
    prevIndex := none
    base := 0
    dir := .forward
    speed := d.num0
    mech := d.num0
    valid := false
    elec := normAngle d (d.sub d.num0 e.offset) }

/-- The filter re-seeded with `v` (41_estimator R143). -/
def estSeed (v : N) (e : Est N) : Est N := { e with speed := v }

/-- A calibration result applied (41_estimator R144). -/
def estSetOffset (d : NumDomain N F) (cfg : Cfg N) (off : N) (inv : Bool) (e : Est N) : Est N :=
  { e with offset := normAngle d off, dirInv := inv, elec := elecAngle d cfg e.mech (normAngle d off) }

/-- The meaning of EST_UPDATE (41_estimator R141). -/
def opEstUpdate (d : NumDomain N F) (s : State N F) : Result N F :=
  unitOp (fun s =>
    let e := estUpdate d s.par s.cfg (liveSnapshot s.cap) s.est
    setRes012 (d.bits32 e.mech) (d.bits32 e.elec) (d.bits32 e.speed) (s.withEst e)) s

/-- The meaning of EST_RESET (41_estimator R142). -/
def opEstReset (d : NumDomain N F) (s : State N F) : Result N F := unitOp (fun s => s.withEst (estReset d s.est)) s

/-- The meaning of EST_SEED_FILTER (41_estimator R143). -/
def opEstSeedFilter (d : NumDomain N F) (s : State N F) : Result N F :=
  unitOp (checked (operandOk s.opr.a0) fun s => s.withEst (estSeed (d.ofBits s.opr.a0) s.est)) s

/-- The meaning of EST_SET_OFFSET (41_estimator R144): A1 bit 0 is `inv`, its other bits are ignored. -/
def opEstSetOffset (d : NumDomain N F) (s : State N F) : Result N F :=
  unitOp (checked (operandOk s.opr.a0) fun s =>
    s.withEst (estSetOffset d s.cfg (d.ofBits s.opr.a0) (s.opr.a1.getLsbD 0) s.est)) s

/-! ### Under NUM = F32 -/

/-- EST_UPDATE (41_estimator R141). -/
def execEstUpdate (s : State) : Result := opEstUpdate f32Num s

/-- EST_RESET (41_estimator R142). -/
def execEstReset (s : State) : Result := opEstReset f32Num s

/-- EST_SEED_FILTER (41_estimator R143). -/
def execEstSeedFilter (s : State) : Result := opEstSeedFilter f32Num s

/-- EST_SET_OFFSET (41_estimator R144). -/
def execEstSetOffset (s : State) : Result := opEstSetOffset f32Num s

end Sys2Proof.Machine
end

