-- ==== Sys2Proof/Machine/OpenLoop.lean ====
section
/-! DEFINITION. OpenLoopStarter (45_openloop): OL_INIT, OL_RESET, OL_UPDATE, OL_REACHED, OL_RPM. -/

namespace Sys2Proof.Machine

variable {N F : Type}

/-- The duty of the high phase (45_openloop R217). -/
def highDuty (d : NumDomain N F) (cfg : Cfg N) (ol : Ol N) : Nat := d.clampRound (d.mul ol.duty (d.ofNat cfg.maxDuty)) cfg.maxDuty

/-- The phase-enable field of a step, W V U (45_openloop R217). -/
def stepPhases (step : Fin 6) : BitVec 3 :=
  match step with
  | 0 => 0b011#3
  | 1 => 0b101#3
  | 2 => 0b110#3
  | 3 => 0b011#3
  | 4 => 0b101#3
  | 5 => 0b110#3

/-- `PATTERN(s)` (45_openloop R217): phase U is high in steps 0 and 1, V in 2 and 3, W in 4 and 5. -/
def pattern (step : Fin 6) (dh : Nat) : Pwm where
  moe := true
  phaseEn := stepPhases step
  dutyU := if step = 0 ∨ step = 1 then dh else 0
  dutyV := if step = 2 ∨ step = 3 then dh else 0
  dutyW := if step = 4 ∨ step = 5 then dh else 0

/-- The pattern of the current step. -/
def olPattern (d : NumDomain N F) (cfg : Cfg N) (ol : Ol N) : Pwm := pattern ol.step (highDuty d cfg ol)

/-- `OL_RESET`: restarted with the stored parameters (45_openloop R213, log 21). -/
def olRestart (d : NumDomain N F) (cfg : Cfg N) (ol : Ol N) : Ol N := olStart d cfg ol.initRpm ol.targetRpm ol.accel ol.duty

/-- The step period after a step: shrunk toward the minimum, never below it (45_openloop R214). -/
def shrinkPeriod (d : NumDomain N F) (ol : Ol N) : N :=
  if d.lt ol.minPeriod ol.period then d.max (d.mul ol.period ol.k) ol.minPeriod else ol.period

/-- `OlUpdate(dt)` (45_openloop R214): at most one step, on strictly exceeding the period. -/
def olUpdate (d : NumDomain N F) (dt : N) (ol : Ol N) : Ol N :=
  let elapsed := d.add ol.elapsed dt
  if d.lt ol.period elapsed then { ol with step := ol.step + 1, elapsed := d.num0, period := shrinkPeriod d ol }
  else { ol with elapsed := elapsed }

/-- `get_current_rpm()` (45_openloop R216, R210). -/
def olRpm (d : NumDomain N F) (cfg : Cfg N) (ol : Ol N) : N := stepPeriod d cfg ol.period

/-- The meaning of OL_INIT (45_openloop R212). -/
def opOlInit (d : NumDomain N F) (s : State N F) : Result N F :=
  unitOp (checked (operandOk s.opr.a0 && operandOk s.opr.a1 && operandOk s.opr.a2 && operandOk s.opr.a3
      && olParamsOk d (d.ofBits s.opr.a0) (d.ofBits s.opr.a1) (d.ofBits s.opr.a2) (d.ofBits s.opr.a3)) fun s =>
    s.withOl (olStart d s.cfg (d.ofBits s.opr.a0) (d.ofBits s.opr.a1) (d.ofBits s.opr.a2) (d.ofBits s.opr.a3))) s

/-- The meaning of OL_RESET (45_openloop R213). -/
def opOlReset (d : NumDomain N F) (s : State N F) : Result N F := unitOp (fun s => s.withOl (olRestart d s.cfg s.ol)) s

/-- The meaning of OL_UPDATE (45_openloop R214): RES1 is `{duty_v, duty_u}`, RES2 is `{phase_en, duty_w}`; the PWM port is not
written (70_reset_and_hazards R330). -/
def opOlUpdate (d : NumDomain N F) (s : State N F) : Result N F :=
  unitOp (checked (operandOk s.opr.a0 && !d.lt (d.ofBits s.opr.a0) d.num0) fun s =>
    let ol := olUpdate d (d.ofBits s.opr.a0) s.ol
    let p := olPattern d s.cfg ol
    setRes012 (u32Word ol.step.val) (dutyField p.dutyV ++ dutyField p.dutyU) (p.phaseEn.setWidth 16 ++ dutyField p.dutyW)
      (s.withOl ol)) s

/-- The meaning of OL_REACHED (45_openloop R215). -/
def opOlReached (d : NumDomain N F) (s : State N F) : Result N F :=
  unitOp (fun s => setRes0 ((BitVec.ofBool (olReached d s.ol)).setWidth 32) s) s

/-- The meaning of OL_RPM (45_openloop R216). -/
def opOlRpm (d : NumDomain N F) (s : State N F) : Result N F := unitOp (fun s => setRes0 (d.bits32 (olRpm d s.cfg s.ol)) s) s

/-! ### Under NUM = F32 -/

/-- OL_INIT (45_openloop R212). -/
def execOlInit (s : State) : Result := opOlInit f32Num s

/-- OL_RESET (45_openloop R213). -/
def execOlReset (s : State) : Result := opOlReset f32Num s

/-- OL_UPDATE (45_openloop R214). -/
def execOlUpdate (s : State) : Result := opOlUpdate f32Num s

/-- OL_REACHED (45_openloop R215). -/
def execOlReached (s : State) : Result := opOlReached f32Num s

/-- OL_RPM (45_openloop R216). -/
def execOlRpm (s : State) : Result := opOlRpm f32Num s

end Sys2Proof.Machine
end

