-- ==== Sys2Proof/Machine/RampLimiter.lean ====
section
/-! DEFINITION. The target-speed ramp limiter (46_coordinator section 1): RAMP_UPDATE, RAMP_SEED. -/

namespace Sys2Proof.Machine

variable {N F : Type}

/-- RAMP.rpm after `RampUpdate(target, dt)` (46_coordinator R230). -/
def rampUpdate (d : NumDomain N F) (cfg : Cfg N) (target dt rpm : N) : N :=
  let s := d.mul cfg.rampRate dt
  d.add rpm (d.clamp (d.sub target rpm) (d.neg s) s)

/-- The meaning of RAMP_UPDATE (46_coordinator R230). -/
def opRampUpdate (d : NumDomain N F) (s : State N F) : Result N F :=
  unitOp (checked (operandOk s.opr.a0 && operandOk s.opr.a1 && !d.lt (d.ofBits s.opr.a1) d.num0) fun s =>
    let r := rampUpdate d s.cfg (d.ofBits s.opr.a0) (d.ofBits s.opr.a1) s.ramp.rpm
    setRes0 (d.bits32 r) (s.withRamp r)) s

/-- The meaning of RAMP_SEED (46_coordinator R231). -/
def opRampSeed (d : NumDomain N F) (s : State N F) : Result N F :=
  unitOp (checked (operandOk s.opr.a0) fun s => s.withRamp (d.ofBits s.opr.a0)) s

/-! ### Under NUM = F32 -/

/-- RAMP_UPDATE (46_coordinator R230). -/
def execRampUpdate (s : State) : Result := opRampUpdate f32Num s

/-- RAMP_SEED (46_coordinator R231). -/
def execRampSeed (s : State) : Result := opRampSeed f32Num s

end Sys2Proof.Machine
end

