-- ==== Sys2Proof/Machine/SpeedPi.lean ====
section
/-! DEFINITION. SpeedController (44_pi): PI_UPDATE, PI_RESET, PI_SET_GAINS, PI_SET_LIMITS, PI_SET_SYM. -/

namespace Sys2Proof.Machine

variable {N F : Type}

/-- The anti-windup test: the previous output lies strictly inside the limits (44_pi R190). -/
def piInside (d : NumDomain N F) (p : Pi N) : Bool := d.lt p.outMin p.lastOutput && d.lt p.lastOutput p.outMax

/-- `PiUpdate` (44_pi R190): the integral first, then the output, which is `lastOutput` of the result. -/
def piUpdate (d : NumDomain N F) (setpoint measured dt : N) (p : Pi N) : Pi N :=
  let error := d.sub setpoint measured
  let integral := if piInside d p then d.add p.integral (d.mul error dt) else p.integral
  { p with
    integral := integral
    lastOutput := d.clamp (d.add (d.mul p.kp error) (d.mul p.ki integral)) p.outMin p.outMax }

/-- `PI_RESET` (44_pi R191); the near-zero rule writes the same two fields (46_coordinator R243). -/
def piReset (d : NumDomain N F) (p : Pi N) : Pi N := { p with integral := d.num0, lastOutput := d.num0 }

/-- The gains set (44_pi R192). -/
def piSetGains (kp ki : N) (p : Pi N) : Pi N := { p with kp := kp, ki := ki }

/-- The limits set (44_pi R193, R194). -/
def piSetLimits (lo hi : N) (p : Pi N) : Pi N := { p with outMin := lo, outMax := hi }

/-- The integral cleared, `last_output` kept (44_pi R195). -/
def piClearIntegral (d : NumDomain N F) (p : Pi N) : Pi N := { p with integral := d.num0 }

/-- The meaning of PI_UPDATE (44_pi R190). -/
def opPiUpdate (d : NumDomain N F) (s : State N F) : Result N F :=
  unitOp (checked (operandOk s.opr.a0 && operandOk s.opr.a1 && operandOk s.opr.a2) fun s =>
    let p := piUpdate d (d.ofBits s.opr.a0) (d.ofBits s.opr.a1) (d.ofBits s.opr.a2) s.pi
    setRes0 (d.bits32 p.lastOutput) (s.withPi p)) s

/-- The meaning of PI_RESET (44_pi R191). -/
def opPiReset (d : NumDomain N F) (s : State N F) : Result N F := unitOp (fun s => s.withPi (piReset d s.pi)) s

/-- The meaning of PI_SET_GAINS (44_pi R192). -/
def opPiSetGains (d : NumDomain N F) (s : State N F) : Result N F :=
  unitOp (checked (operandOk s.opr.a0 && operandOk s.opr.a1) fun s =>
    s.withPi (piSetGains (d.ofBits s.opr.a0) (d.ofBits s.opr.a1) s.pi)) s

/-- The meaning of PI_SET_LIMITS (44_pi R193). -/
def opPiSetLimits (d : NumDomain N F) (s : State N F) : Result N F :=
  unitOp (checked (operandOk s.opr.a0 && operandOk s.opr.a1 && d.lt (d.ofBits s.opr.a0) (d.ofBits s.opr.a1)) fun s =>
    s.withPi (piSetLimits (d.ofBits s.opr.a0) (d.ofBits s.opr.a1) s.pi)) s

/-- The meaning of PI_SET_SYM (44_pi R194). -/
def opPiSetSym (d : NumDomain N F) (s : State N F) : Result N F :=
  unitOp (checked (operandOk s.opr.a0 && d.lt d.num0 (d.ofBits s.opr.a0)) fun s =>
    s.withPi (piSetLimits (d.neg (d.ofBits s.opr.a0)) (d.ofBits s.opr.a0) s.pi)) s

/-! ### Under NUM = F32 -/

/-- PI_UPDATE (44_pi R190). -/
def execPiUpdate (s : State) : Result := opPiUpdate f32Num s

/-- PI_RESET (44_pi R191). -/
def execPiReset (s : State) : Result := opPiReset f32Num s

/-- PI_SET_GAINS (44_pi R192). -/
def execPiSetGains (s : State) : Result := opPiSetGains f32Num s

/-- PI_SET_LIMITS (44_pi R193). -/
def execPiSetLimits (s : State) : Result := opPiSetLimits f32Num s

/-- PI_SET_SYM (44_pi R194). -/
def execPiSetSym (s : State) : Result := opPiSetSym f32Num s

end Sys2Proof.Machine
end

