-- ==== Sys2Proof/Machine/Svpwm.lean ====
section
/-! DEFINITION. SpaceVectorModulator (43_svpwm): SVPWM. -/

namespace Sys2Proof.Machine

variable {N F : Type}

/-- The sector from the signs of x, y, z; none for the two impossible patterns (43_svpwm R173). -/
def svSector (sx sy sz : Bool) : Option Sector :=
  match sx, sy, sz with
  | true, true, false => some .s1
  | true, true, true => some .s2
  | true, false, true => some .s3
  | false, false, true => some .s4
  | false, false, false => some .s5
  | false, true, false => some .s6
  | true, false, false => none
  | false, true, true => none

/-- The raw phase values of a sector pair, scaled by `K` = SV_K (43_svpwm R174); 0 where there is no sector (R173). -/
def svRaw (d : NumDomain N F) (svK : N) (sec : Option Sector) (x y z : N) : N × N × N :=
  match sec with
  | some .s1 | some .s4 => (d.mul svK y, d.mul svK (d.add x z), d.mul (d.neg svK) y)
  | some .s2 | some .s5 => (d.mul svK (d.sub y z), d.mul svK x, d.mul (d.neg svK) x)
  | some .s3 | some .s6 => (d.mul (d.neg svK) z, d.mul svK z, d.mul (d.neg svK) (d.add x y))
  | none => (d.num0, d.num0, d.num0)

/-- The raw phase values of a voltage vector (43_svpwm R170 to R174). -/
def svValues (d : NumDomain N F) (svK va vb vdc : N) : N × N × N :=
  if d.le vdc d.num0 then (d.num0, d.num0, d.num0)
  else
    let a := d.div va vdc
    let b := d.div vb vdc
    let x := b
    let y := d.div (d.add b (d.mul d.sqrt3 a)) d.num2
    let z := d.div (d.sub b (d.mul d.sqrt3 a)) d.num2
    svRaw d svK (svSector (d.lt d.num0 x) (d.lt d.num0 y) (d.lt d.num0 z)) x y z

/-- The duty of a raw phase value (43_svpwm R175). -/
def dutyOf (d : NumDomain N F) (maxDuty : Nat) (value : N) : Nat :=
  d.clampRound (d.mul (d.div (d.add value d.num1) d.num2) (d.ofNat maxDuty)) maxDuty

/-- `Svpwm` (43_svpwm R176): the duties of phases U, V, W. -/
def svpwm (d : NumDomain N F) (svK va vb vdc : N) (maxDuty : Nat) : Nat × Nat × Nat :=
  let v := svValues d svK va vb vdc
  (dutyOf d maxDuty v.1, dutyOf d maxDuty v.2.1, dutyOf d maxDuty v.2.2)

/-- The meaning of SVPWM (43_svpwm R176). -/
def opSvpwm (d : NumDomain N F) (s : State N F) : Result N F :=
  unitOp (checked (operandOk s.opr.a0 && operandOk s.opr.a1 && operandOk s.opr.a2
      && decide (1 ≤ u32Operand s.opr.a3 ∧ u32Operand s.opr.a3 < 2 ^ s.par.wDuty)) fun s =>
    let duty := svpwm d s.par.svK (d.ofBits s.opr.a0) (d.ofBits s.opr.a1) (d.ofBits s.opr.a2) (u32Operand s.opr.a3)
    setRes012 (u32Word duty.1) (u32Word duty.2.1) (u32Word duty.2.2) s) s

/-! ### Under NUM = F32 -/

/-- SVPWM (43_svpwm R176). -/
def execSvpwm (s : State) : Result := opSvpwm f32Num s

end Sys2Proof.Machine
end

