-- ==== Sys2Proof/Machine/Transform.lean ====
section
/-! DEFINITION. CoordinateTransform (42_transform): INV_PARK, INV_CLARKE, LIMIT_V. -/

namespace Sys2Proof.Machine

variable {N F : Type}

/-- Inverse Park: (vα, vβ) (42_transform R160). -/
def invPark (d : NumDomain N F) (vd vq theta : N) : N × N :=
  let c := d.cos theta
  let s := d.sin theta
  (d.sub (d.mul vd c) (d.mul vq s), d.add (d.mul vd s) (d.mul vq c))

/-- Inverse Clarke: (vu, vv, vw) (42_transform R161). -/
def invClarke (d : NumDomain N F) (va vb : N) : N × N × N :=
  let half := d.neg (d.div va d.num2)
  let k := d.mul (d.div d.sqrt3 d.num2) vb
  (va, d.add half k, d.sub half k)

/-- The voltage-magnitude limiter, for `max ≥ 0` (42_transform R162): scaled where the magnitude exceeds `max`, else unchanged. -/
def limitVoltage (d : NumDomain N F) (vd vq max : N) : N × N :=
  let mag := d.sqrt (d.add (d.mul vd vd) (d.mul vq vq))
  if d.lt max mag then
    let f := d.div max mag
    (d.mul vd f, d.mul vq f)
  else (vd, vq)

/-- The meaning of INV_PARK (42_transform R160). -/
def opInvPark (d : NumDomain N F) (s : State N F) : Result N F :=
  unitOp (checked (operandOk s.opr.a0 && operandOk s.opr.a1 && operandOk s.opr.a2) fun s =>
    let v := invPark d (d.ofBits s.opr.a0) (d.ofBits s.opr.a1) (d.ofBits s.opr.a2)
    setRes01 (d.bits32 v.1) (d.bits32 v.2) s) s

/-- The meaning of INV_CLARKE (42_transform R161). -/
def opInvClarke (d : NumDomain N F) (s : State N F) : Result N F :=
  unitOp (checked (operandOk s.opr.a0 && operandOk s.opr.a1) fun s =>
    let v := invClarke d (d.ofBits s.opr.a0) (d.ofBits s.opr.a1)
    setRes012 (d.bits32 v.1) (d.bits32 v.2.1) (d.bits32 v.2.2) s) s

/-- The meaning of LIMIT_V (42_transform R162): `max < 0` is BAD_VALUE. -/
def opLimitV (d : NumDomain N F) (s : State N F) : Result N F :=
  unitOp (checked (operandOk s.opr.a0 && operandOk s.opr.a1 && operandOk s.opr.a2 && !d.lt (d.ofBits s.opr.a2) d.num0) fun s =>
    let v := limitVoltage d (d.ofBits s.opr.a0) (d.ofBits s.opr.a1) (d.ofBits s.opr.a2)
    setRes01 (d.bits32 v.1) (d.bits32 v.2) s) s

/-! ### Under NUM = F32 -/

/-- INV_PARK (42_transform R160). -/
def execInvPark (s : State) : Result := opInvPark f32Num s

/-- INV_CLARKE (42_transform R161). -/
def execInvClarke (s : State) : Result := opInvClarke f32Num s

/-- LIMIT_V (42_transform R162). -/
def execLimitV (s : State) : Result := opLimitV f32Num s

end Sys2Proof.Machine
end

