-- ==== Sys2Proof/Machine/Coordinator.lean ====
section
/-! DEFINITION. ControlModeCoordinator (46_coordinator sections 2 and 3): CTRL_TICK. -/

namespace Sys2Proof.Machine

variable {N F : Type}

/-- `SetMode(m)`: PI_RESET where the mode changes, then the mode (46_coordinator R251). -/
def setMode (d : NumDomain N F) (m : Mode) (s : State N F) : State N F :=
  let s := if s.co.mode = m then s else s.withPi (piReset d s.pi)
  s.withCo { s.co with mode := m }

/-- The ramp and the q command zeroed. -/
def zeroCommand (d : NumDomain N F) (s : State N F) : State N F := (s.withRamp d.num0).withCo { s.co with vq := d.num0 }

/-- `PwmOff()` (46_coordinator R234). -/
def pwmOff (s : State N F) : State N F := s.withPwm pwmOffPort

/-- `EnterOpenLoop()` (46_coordinator R234). -/
def enterOpenLoop (d : NumDomain N F) (effEn : Bool) (s : State N F) : State N F :=
  let s := setMode d .openLoop s
  let s := s.withPi (piReset d s.pi)
  let s := s.withEst (estReset d s.est)
  let s := s.withOl (olRestart d s.cfg s.ol)
  let s := zeroCommand d s
  if effEn then s else pwmOff s

/-- The disabled tick (46_coordinator R235). -/
def disabledTick (d : NumDomain N F) (h : Hreg N) (voltOk : Bool) (s : State N F) : State N F :=
  let s := raiseIf (h.en && !voltOk) .voltInhibit s
  let s := s.withCo { s.co with calReq := false }
  pwmOff (enterOpenLoop d false s)

/-- `CalReset(torque)`: the call to the Calibrator (46_coordinator R246, log 13). -/
def calReset (torque : N) (s : State N F) : State N F := s.withEnv { s.env with calTorque := torque }

/-- `CalRequest()` (46_coordinator R239). -/
def calRequest (d : NumDomain N F) (s : State N F) : State N F :=
  let s := s.withCo { s.co with calReq := false }
  let s := calReset s.co.calTorqueReq s
  zeroCommand d (setMode d .calibration s)

/-- The tick's sample of `v_dc`; a non-finite one counts as 0 (46_coordinator R244). Also a Calibrator drive value (R247). -/
def finiteOrZero (d : NumDomain N F) (v : N) : N := if d.isFinite v then v else d.num0

/-- `Drive(vd, vq, θ)` (46_coordinator R244). -/
def drive (d : NumDomain N F) (vdc vd vq theta : N) (s : State N F) : State N F :=
  let l := limitVoltage d vd vq s.cfg.vLimit
  let v := invPark d l.1 l.2 theta
  let duty := svpwm d s.par.svK v.1 v.2 (finiteOrZero d vdc) s.cfg.maxDuty
  s.withPwm { moe := true, phaseEn := 0b111#3, dutyU := duty.1, dutyV := duty.2.1, dutyW := duty.2.2 }

/-- `SafetyStop()` (46_coordinator R245): CAPTURE_TIMEOUT first, then HALL_INVALID (60_exceptions R287). -/
def safetyStop (d : NumDomain N F) (snap : Snapshot) (s : State N F) : State N F :=
  let s := s.withPwm { s.pwm with dutyU := 0, dutyV := 0, dutyW := 0 }
  let s := s.withPi (piClearIntegral d s.pi)
  let s := zeroCommand d s
  let s := raiseIf snap.timedOut .captureTimeout s
  raiseIf (!rawCodeOk snap.raw) .hallInvalid s

/-- The near-zero test: both speeds strictly below CFG.zero_eps_rpm (46_coordinator R243). -/
def nearZero (d : NumDomain N F) (cfg : Cfg N) (ramp meas : N) : Bool :=
  d.lt (d.abs ramp) cfg.zeroEpsRpm && d.lt (d.abs meas) cfg.zeroEpsRpm

/-- The PI step of the ClosedLoopFoc branch: the PI's new state and the q command (46_coordinator R242, R243). -/
def focCommand (d : NumDomain N F) (par : Par N) (cfg : Cfg N) (ramp meas : N) (p : Pi N) : Pi N × N :=
  if nearZero d cfg ramp meas then (piReset d p, d.num0)
  else
    let p := piUpdate d ramp meas par.tCtrl p
    (p, p.lastOutput)

/-- The ClosedLoopFoc branch (46_coordinator R242). -/
def focBranch (d : NumDomain N F) (h : Hreg N) (vdc : N) (snap : Snapshot) (s : State N F) : State N F :=
  if s.co.hallValid then
    let s := s.withRamp (rampUpdate d s.cfg h.targetRpm s.par.tCtrl s.ramp.rpm)
    let c := focCommand d s.par s.cfg s.ramp.rpm s.est.speed s.pi
    let s := s.withPi c.1
    let s := s.withCo { s.co with vq := c.2 }
    drive d vdc d.num0 c.2 s.est.elec s
  else safetyStop d snap s

/-- `Handoff()` (46_coordinator R241). -/
def handoff (d : NumDomain N F) (s : State N F) : State N F :=
  let r := olRpm d s.cfg s.ol
  setMode d .closedLoopFoc ((s.withEst (estSeed r s.est)).withRamp r)

/-- The OpenLoop branch (46_coordinator R240). -/
def openLoopBranch (d : NumDomain N F) (h : Hreg N) (vdc : N) (snap : Snapshot) (s : State N F) : State N F :=
  if s.co.hallValid && olReached d s.ol then focBranch d h vdc snap (handoff d s)
  else
    let s := s.withOl (olUpdate d s.par.tCtrl s.ol)
    let s := s.withPwm (olPattern d s.cfg s.ol)
    s.withCo { s.co with vq := d.num0 }

/-- `CalSuccess(res)` (46_coordinator R248). -/
def calSuccess (d : NumDomain N F) (vdc offset : N) (dirInv : Bool) (s : State N F) : State N F :=
  let s := s.withCo { s.co with calDone := true, calSuccess := true, calDirInv := dirInv, calOffset := normAngle d offset }
  let s := s.withEst (estSetOffset d s.cfg offset dirInv s.est)
  let s := zeroCommand d (setMode d .closedLoopFoc s)
  drive d vdc d.num0 d.num0 s.est.elec s

/-- `CalFailure()` (46_coordinator R249). -/
def calFailure (d : NumDomain N F) (vdc : N) (s : State N F) : State N F :=
  let s := s.withCo { s.co with calDone := true, calSuccess := false }
  let s := enterOpenLoop d true (raiseFault .calFailed s)
  drive d vdc d.num0 d.num0 d.num0 s

/-- The argument of `CalStep` (46_coordinator R246). -/
def calStepArg (snap : Snapshot) (s : State N F) : CalStepIn N :=
  ⟨snap, s.est.mech, s.est.elec, s.est.valid, s.par.tCtrl, s.cfg.polePairs, s.env.calTorque⟩

/-- The Running case of the Calibration branch: the Calibrator's command, its non-finite values as 0 (46_coordinator R247,
log 12). -/
def calRunning (d : NumDomain N F) (vdc : N) (a : CalAnswer N F) (s : State N F) : State N F :=
  let vq := finiteOrZero d a.vq
  drive d vdc (finiteOrZero d a.vd) vq (finiteOrZero d a.theta) (s.withCo { s.co with vq := vq })

/-- The Calibration branch (46_coordinator R247): one `CalStep`, whose answer is `a`. -/
def calBranch (d : NumDomain N F) (vdc : N) (snap : Snapshot) (a : CalAnswer N F) (s : State N F) : State N F :=
  let s := s.withEnv { s.env with calStepIn := some (calStepArg snap s) }
  match a.status with
  | .running => calRunning d vdc a s
  | .succeeded => calSuccess d vdc (d.ofFinite a.offset) a.dirInv s
  | .failed => calFailure d vdc s

/-- The latch and the snapshot at the head of a tick (46_coordinator R236, R237): the gains, CAP after the gaps, the validity. -/
def tickHead (snap : Snapshot) (cap : Cap) (s : State N F) : State N F :=
  let s := s.withPi (piSetGains s.hreg.kp s.hreg.ki s.pi)
  let s := s.withCap cap
  s.withCo { s.co with hallValid := hallValid snap.raw snap.timedOut }

/-- The estimator update and the mode branch of an enabled tick (46_coordinator R238). -/
def enabledTick (d : NumDomain N F) (inp : TickInput N F) (snap : Snapshot) (s : State N F) : State N F :=
  let h := s.hreg
  let s := if s.co.calReq then calRequest d s else s
  let s := s.withEst (estUpdate d s.par s.cfg snap s.est)
  match s.co.mode with
  | .openLoop => openLoopBranch d h inp.vDc snap s
  | .closedLoopFoc => focBranch d h inp.vDc snap s
  | .calibration => calBranch d inp.vDc snap inp.cal s

/-- One control tick (46_coordinator R238) with the inputs `inp`. -/
def ctrlTick (d : NumDomain N F) (inp : TickInput N F) (s : State N F) : State N F :=
  let sc := takeSnapshot s.par inp s.cap
  let s := tickHead sc.1 sc.2 s
  if s.hreg.en && inp.voltOk then enabledTick d inp sc.1 s else disabledTick d s.hreg inp.voltOk s

/-- The meaning of CTRL_TICK (46_coordinator R238): the tick takes its inputs from the environment. -/
def opCtrlTick (d : NumDomain N F) (s : State N F) : Result N F :=
  .next (ctrlTick d (tickInput d s.env) (s.withEnv (popTick s.env)))

/-! ### Under NUM = F32 -/

/-- CTRL_TICK (46_coordinator R238). -/
def execCtrlTick (s : State) : Result := opCtrlTick f32Num s

end Sys2Proof.Machine
end

