-- ==== Sys2Proof/Machine/HostAccess.lean ====
section
/-! DEFINITION. Host access and system operations (46_coordinator section 4): REG_READ, REG_WRITE, RESET, NOP; power-on; and the
byte-addressed adapter of 20_memory R71 and R73. -/

namespace Sys2Proof.Machine

variable {N F : Type}

/-- `view(idx)`: the word a register shows (10_state R34 to R53, 46_coordinator R250), a real value as the binary32 nearest to it
(30_encoding R103); none for a reserved index (R54). -/
def view (d : NumDomain N F) (s : State N F) (idx : BitVec 8) : Option Word :=
  match idx with
  | 0x00#8 => some (ctrlWord s)
  | 0x01#8 => some (d.bits32 s.hreg.targetRpm)
  | 0x02#8 => some (d.bits32 s.hreg.kp)
  | 0x03#8 => some (d.bits32 s.hreg.ki)
  | 0x04#8 => some (d.bits32 s.hreg.calTorque)
  | 0x08#8 => some s.opr.a0
  | 0x09#8 => some s.opr.a1
  | 0x0A#8 => some s.opr.a2
  | 0x0B#8 => some s.opr.a3
  | 0x0C#8 => some s.opr.res0
  | 0x0D#8 => some s.opr.res1
  | 0x0E#8 => some s.opr.res2
  | 0x10#8 => some (statusWord d s)
  | 0x11#8 => some (d.bits32 s.est.speed)
  | 0x12#8 => some (d.bits32 s.est.elec)
  | 0x13#8 => some (d.bits32 s.est.mech)
  | 0x14#8 => some (u32Word s.cap.periodCycles)
  | 0x15#8 => some (dutyField s.pwm.dutyV ++ dutyField s.pwm.dutyU)
  | 0x16#8 => some ((dutyField s.pwm.dutyW).setWidth 32)
  | 0x17#8 => some (d.bits32 s.est.offset)
  | 0x18#8 => some (s.co.fault.setWidth 32)
  | 0x19#8 => some (u32Word s.cap.stallCount)
  | 0x1A#8 => some (u32Word s.est.base)
  | 0x1B#8 => some (d.bits32 s.ramp.rpm)
  | 0x1C#8 => some (d.bits32 s.co.vq)
  | _ => none

/-- The value a read returns: 0 for a reserved index (10_state R54). -/
def readWord (d : NumDomain N F) (s : State N F) (idx : BitVec 8) : Word := (view d s idx).getD 0#32

/-- Whether an index is reserved (10_state R54). -/
def reservedIndex (d : NumDomain N F) (s : State N F) (idx : BitVec 8) : Bool := (view d s idx).isNone

/-- The value handed to the issuer of a read (46_coordinator R252, log 15). -/
def returnValue (v : Word) (s : State N F) : State N F := s.withEnv { s.env with readValue := v }

/-- A host read of one word (46_coordinator R252). -/
def regRead (d : NumDomain N F) (idx : BitVec 8) (s : State N F) : State N F :=
  raiseIf (reservedIndex d s idx) .illegalAccess (returnValue (readWord d s idx) s)

/-- A write of CTRL (10_state R34): EN, then CAL_REQ with the torque latched, then ESTOP, which wins. -/
def writeCtrl (data : Word) (s : State N F) : State N F :=
  let s := s.withHreg { s.hreg with en := data.getLsbD 0 && !data.getLsbD 2 }
  if data.getLsbD 1 then s.withCo { s.co with calReq := true, calTorqueReq := s.hreg.calTorque } else s

/-- A write of FAULT: write 1 to clear, bits 15:0 (60_exceptions R284). -/
def writeFault (data : Word) (s : State N F) : State N F :=
  s.withCo { s.co with fault := s.co.fault &&& ~~~(data.setWidth 16) }

/-- A host write of one word (46_coordinator R253); a real-valued register takes the value of the binary32 written (30_encoding
R103). A read-only or reserved index raises ILLEGAL_ACCESS before any value check (60_exceptions R287). -/
def regWrite (d : NumDomain N F) (idx : BitVec 8) (data : Word) (s : State N F) : State N F :=
  match idx with
  | 0x00#8 => writeCtrl data s
  | 0x01#8 => checked (fIsFinite data) (fun s => s.withHreg { s.hreg with targetRpm := d.ofBits data }) s
  | 0x02#8 => checked (fIsFinite data) (fun s => s.withHreg { s.hreg with kp := d.ofBits data }) s
  | 0x03#8 => checked (fIsFinite data) (fun s => s.withHreg { s.hreg with ki := d.ofBits data }) s
  | 0x04#8 => checked (fIsFinite data) (fun s =>
      s.withHreg { s.hreg with calTorque := d.clamp (d.ofBits data) d.torqueMin d.torqueMax }) s
  | 0x08#8 => s.withOpr { s.opr with a0 := data }
  | 0x09#8 => s.withOpr { s.opr with a1 := data }
  | 0x0A#8 => s.withOpr { s.opr with a2 := data }
  | 0x0B#8 => s.withOpr { s.opr with a3 := data }
  | 0x18#8 => writeFault data s
  | _ => raiseFault .illegalAccess s

/-- The reset sequence (70_reset_and_hazards R311): CFG is sampled from the configuration input and refused outside its ranges;
then every state field takes its reset value. The line levels are given: at power-on the environment's draw, at RESET those that
stand. -/
def resetSequence (d : NumDomain N F) (par : Par N) (lines : HallCode) (env : Env N F) : Result N F :=
  if legal : cfgValid d par.wDuty env.cfgIn = true then .next (State.resetWith d par env.cfgIn legal lines (popCfg env))
  else .refused .cfgOutOfRange

/-- Power-on (70_reset_and_hazards R310) of a block with parameters `par`, with the drawn line levels `lines` (10_state R56) and
the environment `env`, which presents the configuration. -/
def State.powerOn (d : NumDomain N F) (par : Par N) (lines : HallCode) (env : Env N F) : Result N F :=
  resetSequence d par lines env

/-- The meaning of REG_READ (46_coordinator R252). -/
def opRegRead (d : NumDomain N F) (idx : BitVec 8) (s : State N F) : Result N F := .next (regRead d idx s)

/-- The meaning of REG_WRITE (46_coordinator R253). -/
def opRegWrite (d : NumDomain N F) (idx : BitVec 8) (data : Word) (s : State N F) : Result N F := .next (regWrite d idx data s)

/-- The meaning of RESET (46_coordinator R254): the reset sequence, the line levels kept. -/
def opReset (d : NumDomain N F) (s : State N F) : Result N F := resetSequence d s.par s.cap.hallLines s.env

/-- The meaning of NOP (46_coordinator R255). -/
def opNop (s : State N F) : Result N F := .next s

/-! ### Under NUM = F32 -/

/-- REG_READ (46_coordinator R252). -/
def execRegRead (idx : BitVec 8) (s : State) : Result := opRegRead f32Num idx s

/-- REG_WRITE (46_coordinator R253). -/
def execRegWrite (idx : BitVec 8) (data : Word) (s : State) : Result := opRegWrite f32Num idx data s

/-- RESET (46_coordinator R254). -/
def execReset (s : State) : Result := opReset f32Num s

/-- NOP (46_coordinator R255). -/
def execNop (s : State) : Result := opNop s

/-! ### The byte-addressed adapter (20_memory R71, R73) -/

/-- An access the adapter can pass on: a whole word at a multiple of 4 (20_memory R73). -/
def wordAccess (addr size : Nat) : Bool := decide (addr % 4 = 0 ∧ size = 4)

/-- `MemRead(addr, size)`: `REG_READ(addr / 4)`; a misaligned or narrow access returns 0 and raises ILLEGAL_ACCESS; an aligned
word above 1020 does not exist (log 19). -/
def memRead (d : NumDomain N F) (addr size : Nat) (s : State N F) : Result N F :=
  if wordAccess addr size then
    if addr ≤ 1020 then .next (regRead d (BitVec.ofNat 8 (addr / 4)) s) else .fault (.noSuchAddress addr)
  else .next (raiseFault .illegalAccess (returnValue 0#32 s))

/-- `MemWrite(addr, size, v)`: `REG_WRITE(addr / 4, v)`; a misaligned or narrow access has no effect and raises
ILLEGAL_ACCESS. -/
def memWrite (d : NumDomain N F) (addr size : Nat) (v : Word) (s : State N F) : Result N F :=
  if wordAccess addr size then
    if addr ≤ 1020 then .next (regWrite d (BitVec.ofNat 8 (addr / 4)) v s) else .fault (.noSuchAddress addr)
  else .next (raiseFault .illegalAccess s)

/-- Byte `k` of a register word: little-endian (20_memory R72). -/
def wordByte (w : Word) (k : Fin 4) : BitVec 8 := w.extractLsb' (8 * k.val) 8

end Sys2Proof.Machine
end

