-- ==== Sys2Proof/Syntax.lean ====
section
/-! DEFINITION. The operations of the command port (30_encoding R93), one constructor per row of spec/opcode_table.json, with the
operands R92 gives them; the pseudo-operations of R99; the textual form of R98. -/

namespace Sys2Proof

/-- An operation of the command/event port (30_encoding R90, R93). -/
inductive Instr where
  | nop
  | hallIn (lines : HallCode)
  | ovfTick
  | clkAdv (n : BitVec 24)
  | estUpdate
  | estReset
  | estSeedFilter
  | estSetOffset
  | invPark
  | invClarke
  | limitV
  | svpwm
  | piUpdate
  | piReset
  | piSetGains
  | piSetLimits
  | piSetSym
  | olInit
  | olReset
  | olUpdate
  | olReached
  | olRpm
  | rampUpdate
  | rampSeed
  | ctrlTick
  | regRead (idx : BitVec 8)
  | regWrite (idx : BitVec 8) (data : Word)
  | reset
  deriving DecidableEq, Repr

/-- The mnemonic of an operation (30_encoding R93). -/
def Instr.mnemonic : Instr → String
  | .nop => "NOP"
  | .hallIn _ => "HALL_IN"
  | .ovfTick => "OVF_TICK"
  | .clkAdv _ => "CLK_ADV"
  | .estUpdate => "EST_UPDATE"
  | .estReset => "EST_RESET"
  | .estSeedFilter => "EST_SEED_FILTER"
  | .estSetOffset => "EST_SET_OFFSET"
  | .invPark => "INV_PARK"
  | .invClarke => "INV_CLARKE"
  | .limitV => "LIMIT_V"
  | .svpwm => "SVPWM"
  | .piUpdate => "PI_UPDATE"
  | .piReset => "PI_RESET"
  | .piSetGains => "PI_SET_GAINS"
  | .piSetLimits => "PI_SET_LIMITS"
  | .piSetSym => "PI_SET_SYM"
  | .olInit => "OL_INIT"
  | .olReset => "OL_RESET"
  | .olUpdate => "OL_UPDATE"
  | .olReached => "OL_REACHED"
  | .olRpm => "OL_RPM"
  | .rampUpdate => "RAMP_UPDATE"
  | .rampSeed => "RAMP_SEED"
  | .ctrlTick => "CTRL_TICK"
  | .regRead _ => "REG_READ"
  | .regWrite _ _ => "REG_WRITE"
  | .reset => "RESET"

/-- The operand part of the textual form (30_encoding R98); registers and data are written as numbers, which R98 admits. -/
def Instr.operandText : Instr → String
  | .hallIn lines => " " ++ toString lines.toNat
  | .clkAdv n => " " ++ toString n.toNat
  | .regRead idx => " " ++ toString idx.toNat
  | .regWrite idx data => " " ++ toString idx.toNat ++ ", 0x" ++ String.ofList (Nat.toDigits 16 data.toNat)
  | _ => ""

/-- The textual form of an operation: its mnemonic followed by its operand, if any (30_encoding R98). -/
def Instr.text (i : Instr) : String := i.mnemonic ++ i.operandText

/-- The pseudo-operations (30_encoding R99). `load k` names the operand register Ak. -/
inductive Pseudo where
  | enable
  | disable
  | estop
  | calibrate
  | setTarget (f : F32)
  | setGains (kp ki : F32)
  | load (k : Fin 4) (value : Word)
  | clearFaults
  deriving DecidableEq, Repr

/-- The expansion of a pseudo-operation (30_encoding R99; register indices of 10_state section 4). -/
def Pseudo.expand : Pseudo → List Instr
  | .enable => [.regWrite 0x00#8 0x00000001#32]
  | .disable => [.regWrite 0x00#8 0x00000000#32]
  | .estop => [.regWrite 0x00#8 0x00000004#32]
  | .calibrate => [.regWrite 0x00#8 0x00000003#32]
  | .setTarget f => [.regWrite 0x01#8 f]
  | .setGains kp ki => [.regWrite 0x02#8 kp, .regWrite 0x03#8 ki]
  | .load k value => [.regWrite (0x08#8 + BitVec.ofNat 8 k.val) value]
  | .clearFaults => [.regWrite 0x18#8 0x0000FFFF#32]

end Sys2Proof
end

