-- ==== Sys2Proof/Machine/Dispatch.lean ====
section
/-! DEFINITION. One arm per operation of 30_encoding R93. -/

namespace Sys2Proof.Machine

def exec (i : Instr) (s : State) : Host.Outcome State Fault Refusal :=
  match i with
  | .nop => Sys2Proof.Machine.execNop s
  | .hallIn lines => Sys2Proof.Machine.execHallIn lines s
  | .ovfTick => Sys2Proof.Machine.execOvfTick s
  | .clkAdv n => Sys2Proof.Machine.execClkAdv n s
  | .estUpdate => Sys2Proof.Machine.execEstUpdate s
  | .estReset => Sys2Proof.Machine.execEstReset s
  | .estSeedFilter => Sys2Proof.Machine.execEstSeedFilter s
  | .estSetOffset => Sys2Proof.Machine.execEstSetOffset s
  | .invPark => Sys2Proof.Machine.execInvPark s
  | .invClarke => Sys2Proof.Machine.execInvClarke s
  | .limitV => Sys2Proof.Machine.execLimitV s
  | .svpwm => Sys2Proof.Machine.execSvpwm s
  | .piUpdate => Sys2Proof.Machine.execPiUpdate s
  | .piReset => Sys2Proof.Machine.execPiReset s
  | .piSetGains => Sys2Proof.Machine.execPiSetGains s
  | .piSetLimits => Sys2Proof.Machine.execPiSetLimits s
  | .piSetSym => Sys2Proof.Machine.execPiSetSym s
  | .olInit => Sys2Proof.Machine.execOlInit s
  | .olReset => Sys2Proof.Machine.execOlReset s
  | .olUpdate => Sys2Proof.Machine.execOlUpdate s
  | .olReached => Sys2Proof.Machine.execOlReached s
  | .olRpm => Sys2Proof.Machine.execOlRpm s
  | .rampUpdate => Sys2Proof.Machine.execRampUpdate s
  | .rampSeed => Sys2Proof.Machine.execRampSeed s
  | .ctrlTick => Sys2Proof.Machine.execCtrlTick s
  | .regRead idx => Sys2Proof.Machine.execRegRead idx s
  | .regWrite idx data => Sys2Proof.Machine.execRegWrite idx data s
  | .reset => Sys2Proof.Machine.execReset s

end Sys2Proof.Machine
end

