-- ==== Sys2Proof/WellFormed.lean ====
section
/-! DEFINITION. Which operations may be issued. Every operand of `Instr` has the width its format gives it, so an operand out of
range cannot be written; the one check left is the gating of the unit operations by TEST_PORT_EN (30_encoding R95). -/

namespace Sys2Proof

/-- The unit operations of the test port, opcodes 0x10 to 0x61 of the map (30_encoding R93, R95; the `test_port_only` column of
spec/opcode_table.json). -/
def Instr.testPortOnly : Instr → Bool
  | .nop => false
  | .hallIn _ => false
  | .ovfTick => false
  | .clkAdv _ => false
  | .estUpdate => true
  | .estReset => true
  | .estSeedFilter => true
  | .estSetOffset => true
  | .invPark => true
  | .invClarke => true
  | .limitV => true
  | .svpwm => true
  | .piUpdate => true
  | .piReset => true
  | .piSetGains => true
  | .piSetLimits => true
  | .piSetSym => true
  | .olInit => true
  | .olReset => true
  | .olUpdate => true
  | .olReached => true
  | .olRpm => true
  | .rampUpdate => true
  | .rampSeed => true
  | .ctrlTick => false
  | .regRead _ => false
  | .regWrite _ _ => false
  | .reset => false

/-- Whether an operation is legal on a block whose TEST_PORT_EN is `testPortEn` (30_encoding R95). -/
def Instr.wellFormed (testPortEn : Bool) (i : Instr) : Bool :=
  testPortEn || !i.testPortOnly

end Sys2Proof
end

