-- ==== Sys2Proof/Decode.lean ====
section
/-! DEFINITION. The decoder of command words (30_encoding R90, R93, R94, R97), total on every list of words, and the encoder
written from the same tables. -/

namespace Sys2Proof

/-- Why a command word is illegal (30_encoding R94). -/
inductive IllegalWord where
  /-- The opcode is not in the map of R93. -/
  | unknownOpcode
  /-- A reserved bit of the format is not zero. -/
  | reservedBits
  deriving DecidableEq, Repr

/-- What the decoder reads at the head of the command words. -/
inductive Decoded where
  /-- A legal operation, and the words after it. -/
  | instr (i : Instr) (rest : List Word)
  /-- An illegal command word, and the words after that ONE word (R94: a following data word is not consumed). -/
  | illegal (why : IllegalWord) (rest : List Word)
  /-- No whole operation is there: no word, or a `REG_WRITE` command word whose data word has not arrived (log 9). -/
  | waiting
  deriving DecidableEq, Repr

/-- `w[7:0]`, the opcode (30_encoding R90). -/
def wordOpcode (w : Word) : BitVec 8 := w.extractLsb' 0 8

/-- `w[10:8]`, the operand of format H. -/
def wordLines (w : Word) : HallCode := w.extractLsb' 8 3

/-- `w[31:8]`, the operand of format C. -/
def wordCycles (w : Word) : BitVec 24 := w.extractLsb' 8 24

/-- `w[15:8]`, the word index of formats I and IW. -/
def wordIndex (w : Word) : BitVec 8 := w.extractLsb' 8 8

/-- Format N: `w[31:8]` must be zero. -/
def decodeN (w : Word) (rest : List Word) (i : Instr) : Decoded :=
  if w.extractLsb' 8 24 = 0#24 then .instr i rest else .illegal .reservedBits rest

/-- Format H: `w[31:11]` must be zero. -/
def decodeH (w : Word) (rest : List Word) (i : HallCode → Instr) : Decoded :=
  if w.extractLsb' 11 21 = 0#21 then .instr (i (wordLines w)) rest else .illegal .reservedBits rest

/-- Format I: `w[31:16]` must be zero. -/
def decodeI (w : Word) (rest : List Word) (i : BitVec 8 → Instr) : Decoded :=
  if w.extractLsb' 16 16 = 0#16 then .instr (i (wordIndex w)) rest else .illegal .reservedBits rest

/-- Format IW: as format I, then one data word of any value (R97). -/
def decodeIW (w : Word) (rest : List Word) (i : BitVec 8 → Word → Instr) : Decoded :=
  if w.extractLsb' 16 16 = 0#16 then
    match rest with
    | data :: rest' => .instr (i (wordIndex w) data) rest'
    | [] => .waiting
  else .illegal .reservedBits rest

/-- One command word and what follows it: the opcode map of R93, then the reserved bits of the format. -/
def decodeCommand (w : Word) (rest : List Word) : Decoded :=
  match wordOpcode w with
  | 0x00#8 => decodeN w rest .nop
  | 0x01#8 => decodeH w rest .hallIn
  | 0x02#8 => decodeN w rest .ovfTick
  | 0x03#8 => .instr (.clkAdv (wordCycles w)) rest
  | 0x10#8 => decodeN w rest .estUpdate
  | 0x11#8 => decodeN w rest .estReset
  | 0x12#8 => decodeN w rest .estSeedFilter
  | 0x13#8 => decodeN w rest .estSetOffset
  | 0x20#8 => decodeN w rest .invPark
  | 0x21#8 => decodeN w rest .invClarke
  | 0x22#8 => decodeN w rest .limitV
  | 0x30#8 => decodeN w rest .svpwm
  | 0x40#8 => decodeN w rest .piUpdate
  | 0x41#8 => decodeN w rest .piReset
  | 0x42#8 => decodeN w rest .piSetGains
  | 0x43#8 => decodeN w rest .piSetLimits
  | 0x44#8 => decodeN w rest .piSetSym
  | 0x50#8 => decodeN w rest .olInit
  | 0x51#8 => decodeN w rest .olReset
  | 0x52#8 => decodeN w rest .olUpdate
  | 0x53#8 => decodeN w rest .olReached
  | 0x54#8 => decodeN w rest .olRpm
  | 0x60#8 => decodeN w rest .rampUpdate
  | 0x61#8 => decodeN w rest .rampSeed
  | 0x70#8 => decodeN w rest .ctrlTick
  | 0x71#8 => decodeI w rest .regRead
  | 0x72#8 => decodeIW w rest .regWrite
  | 0x7F#8 => decodeN w rest .reset
  | _ => .illegal .unknownOpcode rest

/-- The operation at the head of the command words (30_encoding R97). -/
def decode : List Word → Decoded
  | [] => .waiting
  | w :: rest => decodeCommand w rest

/-- The opcode of an operation (30_encoding R93). -/
def opcodeOf : Instr → BitVec 8
  | .nop => 0x00#8
  | .hallIn _ => 0x01#8
  | .ovfTick => 0x02#8
  | .clkAdv _ => 0x03#8
  | .estUpdate => 0x10#8
  | .estReset => 0x11#8
  | .estSeedFilter => 0x12#8
  | .estSetOffset => 0x13#8
  | .invPark => 0x20#8
  | .invClarke => 0x21#8
  | .limitV => 0x22#8
  | .svpwm => 0x30#8
  | .piUpdate => 0x40#8
  | .piReset => 0x41#8
  | .piSetGains => 0x42#8
  | .piSetLimits => 0x43#8
  | .piSetSym => 0x44#8
  | .olInit => 0x50#8
  | .olReset => 0x51#8
  | .olUpdate => 0x52#8
  | .olReached => 0x53#8
  | .olRpm => 0x54#8
  | .rampUpdate => 0x60#8
  | .rampSeed => 0x61#8
  | .ctrlTick => 0x70#8
  | .regRead _ => 0x71#8
  | .regWrite _ _ => 0x72#8
  | .reset => 0x7F#8

/-- The bits above the opcode of an operation's command word (30_encoding R90, R92). -/
def operandBits : Instr → BitVec 24
  | .hallIn lines => 0#21 ++ lines
  | .clkAdv n => n
  | .regRead idx => 0#16 ++ idx
  | .regWrite idx _ => 0#16 ++ idx
  | _ => 0#24

/-- The data words after the command word (30_encoding R90: `REG_WRITE` alone has one). -/
def dataWords : Instr → List Word
  | .regWrite _ data => [data]
  | _ => []

/-- The words of an operation (30_encoding R90). -/
def encode (i : Instr) : List Word :=
  (operandBits i ++ opcodeOf i) :: dataWords i

/-- The words of a pseudo-operation (30_encoding R99). -/
def encodePseudo (p : Pseudo) : List Word :=
  p.expand.flatMap encode

/-- The two words of an instruction whose bits are numbered from bit 0 of its first word, bits above `nbits` zero. -/
def tableWords (nbits w : Nat) : List Word :=
  let v := w % 2 ^ nbits
  [BitVec.ofNat 32 v, BitVec.ofNat 32 (v / 2 ^ 32)]

/-- The instruction the decoder reads from the bits `w` of a row of spec/opcode_table.json. -/
def decodeTableWord (nbits w : Nat) : Option Instr :=
  match decode (tableWords nbits w) with
  | .instr i _ => some i
  | .illegal _ _ => none
  | .waiting => none

end Sys2Proof
end

