-- ==== Sys2Proof/Machine/Port.lean ====
section
/-! DEFINITION. The command port (20_memory R77, R81): what a step takes from it, over any numeric domain. -/

namespace Sys2Proof.Machine

variable {N F : Type}

/-- One step of a block whose operations mean `run`: the operation at the head of the command words is taken from the port and
run. An illegal command word is consumed and raises ILLEGAL_OP (30_encoding R94, 60_exceptions R297). Where no whole operation has
been presented the block waits unchanged: it never halts (70_reset_and_hazards R329, log 9). -/
def portStep (run : Instr → State N F → Result N F) (s : State N F) : Result N F :=
  match decode s.env.stream with
  | .instr i rest => run i (s.withStream rest)
  | .illegal _ rest => .next (raiseFault .illegalOp (s.withStream rest))
  | .waiting => .next s

end Sys2Proof.Machine
end

