-- ==== Sys2Proof/Machine/Step.lean ====
section
/-! DEFINITION. One step under NUM = F32: the operation at the head of the command words is taken from the port and executed
(20_memory R77, R81). -/

namespace Sys2Proof.Machine

/-- One step of the block. -/
def step (s : State) : Host.Outcome State Fault Refusal := portStep exec s

/-- The command port presenting one instruction of spec/opcode_table.json, its bits above `nbits` zero, in place of the words it
had: two words, the longest operation's length (30_encoding R90). -/
def State.withFetchWord (s : State) (nbits w : Nat) : State := s.withStream (tableWords nbits w)

end Sys2Proof.Machine
end

