-- ==== Sys2Proof/Machine/RealNum.lean ====
section
/-! DEFINITION. The numeric domain REAL of NUM (00_scope R5 and section 6): exact reals, for proofs. A register shows the binary32
nearest to the exact value, ties to even, and a write stores the exact value of the binary32 written (30_encoding R103). -/

namespace Sys2Proof.Machine

/-- Free value: the quotient of a real and 0, to which exact division gives no value (log 1), safe. Only a CLOCK_HZ of 0 makes a
rule divide by 0. -/
noncomputable opaque Config.realDivByZero : ℝ → ℝ

/-- Free value: the environment's draw for the tick of this number under NUM = REAL (log 10), safe. -/
noncomputable opaque Config.realDrawTick : Nat → TickInput ℝ ℝ

/-- The exact value of a finite pattern (30_encoding R103); no rule reads any other as a Num. -/
noncomputable def realOfBits (w : Word) : ℝ := (fSigned w : ℝ) * (2 : ℝ) ^ (fScale w)

/-- A nonnegative real rounded to an integer, ties to even. -/
noncomputable def roundEven (x : ℝ) : Nat :=
  let n := ⌊x⌋₊
  open Classical in
  if 1 / 2 < x - n ∨ (x - n = 1 / 2 ∧ n % 2 = 1) then n + 1 else n

/-- The binary32 nearest to a real, ties to even, an overflow to infinity (30_encoding R103; log 1). As in `fRound`, the last bit
of the significand is placed at `max (⌊log2 |x|⌋ − 23) (−149)`, and a carry runs into the exponent field. -/
noncomputable def realBits32 (x : ℝ) : Word :=
  open Classical in
  if x = 0 then fZero false
  else
    let q : Int := max (Int.log 2 |x| - 23) (-149)
    let magnitude := (q + 149).toNat * 2 ^ 23 + roundEven (|x| / (2 : ℝ) ^ q)
    if magnitude < 0x7F800000 then fBuild (decide (x < 0)) magnitude else fInf (decide (x < 0))

/-- `round(v)`: the nearest integer, halves away from zero (00_scope section 6, D3). -/
noncomputable def realRoundAway (x : ℝ) : Int :=
  open Classical in
  if 0 ≤ x then ⌊x + 1 / 2⌋ else ⌈x - 1 / 2⌉

/-- NUM = REAL (00_scope R5 and section 6): exact reals, SIN, COS and SQRT among them (log 2). -/
noncomputable def realNum : NumDomain ℝ ℝ where
  num0 := 0
  num1 := 1
  num2 := 2
  num60 := 60
  twoPi := 2 * Real.pi
  sqrt3 := √3
  torqueMin := 1 / 10
  torqueMax := 1 / 2
  ofNat := fun n => n
  ofBits := realOfBits
  bits32 := realBits32
  add := fun x y => x + y
  sub := fun x y => x - y
  mul := fun x y => x * y
  div := fun x y => open Classical in if y = 0 then Config.realDivByZero x else x / y
  neg := fun x => -x
  abs := fun x => |x|
  lt := fun x y => open Classical in decide (x < y)
  le := fun x y => open Classical in decide (x ≤ y)
  max := fun x y => max x y
  clamp := fun v lo hi => min (max v lo) hi
  floor := fun x => ⌊x⌋
  clampRound := fun v m => min (realRoundAway v).toNat m
  isFinite := fun _ => true
  sin := Real.sin
  cos := Real.cos
  sqrt := Real.sqrt
  ofFinite := fun x => x
  drawTick := Config.realDrawTick

end Sys2Proof.Machine
end

