-- ==== Sys2Proof/Machine/Instance.lean ====
section
/-! DEFINITION. The block over any numeric domain, and its instance at NUM = REAL (00_scope R5). The instance at NUM = F32 is
`exec`, `step` and `core`. -/

namespace Sys2Proof.Machine

variable {N F : Type}

/-- The meaning of every operation of 30_encoding R93, over any numeric domain. -/
def execOver (d : NumDomain N F) (i : Instr) (s : State N F) : Result N F :=
  match i with
  | .nop => opNop s
  | .hallIn lines => opHallIn lines s
  | .ovfTick => opOvfTick s
  | .clkAdv n => opClkAdv n s
  | .estUpdate => opEstUpdate d s
  | .estReset => opEstReset d s
  | .estSeedFilter => opEstSeedFilter d s
  | .estSetOffset => opEstSetOffset d s
  | .invPark => opInvPark d s
  | .invClarke => opInvClarke d s
  | .limitV => opLimitV d s
  | .svpwm => opSvpwm d s
  | .piUpdate => opPiUpdate d s
  | .piReset => opPiReset d s
  | .piSetGains => opPiSetGains d s
  | .piSetLimits => opPiSetLimits d s
  | .piSetSym => opPiSetSym d s
  | .olInit => opOlInit d s
  | .olReset => opOlReset d s
  | .olUpdate => opOlUpdate d s
  | .olReached => opOlReached d s
  | .olRpm => opOlRpm d s
  | .rampUpdate => opRampUpdate d s
  | .rampSeed => opRampSeed d s
  | .ctrlTick => opCtrlTick d s
  | .regRead idx => opRegRead d idx s
  | .regWrite idx data => opRegWrite d idx data s
  | .reset => opReset d s

/-- One step over any numeric domain. -/
def stepOver (d : NumDomain N F) (s : State N F) : Result N F := portStep (execOver d) s

/-- The block at NUM = REAL: the state over the reals, its step, and its power-on state for parameters, line levels and a
configuration, which must come with the proof that it lies in the ranges of 00_scope R7: for any other there is no power-on state
(70_reset_and_hazards R311), and so no block. -/
noncomputable def realCore (par : Par ℝ) (cfg : Cfg ℝ) (legal : cfgValid realNum par.wDuty cfg = true) (lines : HallCode) :
    Host.Core where
  State := State ℝ ℝ
  Fault := Fault
  Refusal := Refusal
  step := stepOver realNum
  reset := State.resetWith realNum par cfg legal lines (envIdle realNum cfg)

end Sys2Proof.Machine
end

