-- ==== Sys2Proof/Safety.lean ====
section
/-! DEFINITION. The terms claims use: the invariant of the reachable states, the value of a binary32 pattern, and what it is for
two answers to agree. They speak of the block under NUM = F32 (`core`) but where they name another domain. -/

namespace Sys2Proof.Safety

open Sys2Proof.Machine

/-- The rational value of a finite binary32 pattern (G7). -/
def fVal (x : F32) : Rat := (fSigned x : Rat) * (2 : Rat) ^ (fScale x)

/-- The least magnitude that rounds to an infinity: the largest finite value and half its last bit (G7, 00_scope section 6). -/
def overflowBound : Rat := 2 ^ 128 - 2 ^ 103

/-- `r` is the binary32 that the exact value `v` is rounded to: to nearest, ties to even, to an infinity from `overflowBound` on,
with the sign of `v` where `v` is not 0 (00_scope section 6, G7). -/
def CorrectlyRounded (v : Rat) (r : F32) : Prop :=
  (|v| < overflowBound → fIsFinite r = true ∧
    ∀ z : F32, fIsFinite z = true → |fVal r - v| ≤ |fVal z - v| ∧
      (|fVal r - v| = |fVal z - v| → fVal r ≠ fVal z → r.getLsbD 0 = false)) ∧
  (overflowBound ≤ |v| → fIsInf r = true) ∧
  (v ≠ 0 → fNegative r = decide (v < 0))

/-- What holds in every reachable state. Each field cites the rule that promises it. -/
structure Inv (s : State) : Prop where
  /-- CFG satisfies its preconditions (00_scope R7, 70_reset_and_hazards R311). -/
  cfg_valid : cfgValid f32Num s.par.wDuty s.cfg = true
  /-- EST.base lies in [0, 6·pole_pairs) (10_state R24, R51). -/
  base_lt : s.est.base < n6 s.cfg
  /-- EST.base is a multiple of 6 (41_estimator R133). -/
  base_mod : s.est.base % 6 = 0
  /-- `out_min < out_max` (10_state R25). -/
  limits : fLt s.pi.outMin s.pi.outMax = true
  /-- The stored open-loop parameters passed the check of `OL_INIT` (45_openloop R213). -/
  ol_params : olParamsOk f32Num s.ol.initRpm s.ol.targetRpm s.ol.accel s.ol.duty = true
  /-- Only bits 1 to 7 of the sticky record are ever set (10_state R49, 60_exceptions R281, U7). -/
  fault_bits : s.co.fault &&& 0xFF01#16 = 0#16
  /-- LAST_FAULT holds a cause that is raised, or NONE (60_exceptions R281). -/
  last_fault : s.co.lastFault.toNat ≤ 7
  /-- NONE means that nothing was raised since reset (60_exceptions R281). -/
  no_fault : s.co.lastFault = 0#4 → s.co.fault = 0#16
  /-- CAL_TORQUE lies in [0.1, 0.5] (10_state R30, R38). -/
  torque : between f32Num 0x3DCCCCCD#32 s.hreg.calTorque 0x3F000000#32 = true
  /-- So does the torque latched with a request (10_state R34). -/
  torque_req : between f32Num 0x3DCCCCCD#32 s.co.calTorqueReq 0x3F000000#32 = true
  /-- TARGET_RPM is finite (10_state R35). -/
  target : fIsFinite s.hreg.targetRpm = true
  /-- Each duty lies in [0, CFG.max_duty] (10_state R29). -/
  duty_u : s.pwm.dutyU ≤ s.cfg.maxDuty
  duty_v : s.pwm.dutyV ≤ s.cfg.maxDuty
  duty_w : s.pwm.dutyW ≤ s.cfg.maxDuty
  /-- Where the outputs are disabled, no phase is enabled and every duty is 0 (46_coordinator R234). -/
  pwm_off : s.pwm.moe = false → s.pwm = pwmOffPort
  /-- `timed_out` holds exactly where the stall count exceeds its limit (40_capture R111, R112). -/
  timed_out : s.cap.timedOut = decide (s.par.stallLimit < s.cap.stallCount)
  /-- A timeout zeroes the period (40_capture R112). -/
  timeout_period : s.cap.timedOut = true → s.cap.periodCycles = 0
  /-- Each counter and each captured value fits its width (10_state R23; 40_capture R112, R113). -/
  cnt_lt : s.cap.cnt < 2 ^ s.par.wCnt
  period_lt : s.cap.periodCycles < 2 ^ s.par.wCnt
  tb_lt : s.cap.tb < 2 ^ s.par.wTs
  timestamp_lt : s.cap.captureTimestamp < 2 ^ s.par.wTs
  stall_lt : s.cap.stallCount < 2 ^ s.par.wStall

/-- A step's answer is a next state: the block goes on. -/
def goesOn (r : Result) : Prop := ∃ t, r = .next t

/-- Two answers agree up to a view of the state: the same kind of answer, and next states with the same view. -/
def agreeUpTo {α : Type} (f : State → α) (r r' : Result) : Prop :=
  match r, r' with
  | .next t, .next t' => f t = f t'
  | .fault x, .fault y => x = y
  | .refused x, .refused y => x = y
  | _, _ => False

/-- The state with EST.dir_inv put to a fixed value, so that only what else it holds is compared. -/
def forgetDirInv (s : State) : State := s.withEst { s.est with dirInv := false }

/-! ### The rules' own record of an effect, written out for the claims -/

/-- The state after the cause with this code is recorded: its sticky bit and LAST_FAULT, nothing else (60_exceptions R283). -/
def recorded (code : Nat) (s : State) : State :=
  { s with co := { s.co with fault := s.co.fault ||| BitVec.ofNat 16 (2 ^ code), lastFault := BitVec.ofNat 4 code } }

/-- What a unit operation without operands does from `s` (30_encoding R95): ILLEGAL_OP where the test port is disabled; else its
own effect, which leaves the state `t`. -/
def unitRun (i : Instr) (s t : State) : Prop :=
  (s.par.testPortEn = false → exec i s = .next (recorded 4 s)) ∧ (s.par.testPortEn = true → exec i s = .next t)

/-- What a unit operation with operands does from `s` (30_encoding R95, 60_exceptions R298): ILLEGAL_OP where the port is
disabled; BAD_VALUE where its value check `ok` fails; else its own effect, which leaves the state `t`. -/
def unitCase (i : Instr) (ok : Bool) (s t : State) : Prop :=
  (s.par.testPortEn = false → exec i s = .next (recorded 4 s)) ∧
  (s.par.testPortEn = true → ok = false → exec i s = .next (recorded 6 s)) ∧
  (s.par.testPortEn = true → ok = true → exec i s = .next t)

/-- The operation a capture operation is (30_encoding R93). -/
def captureInstr : CaptureOp → Instr
  | .hallIn lines => .hallIn lines
  | .ovfTick => .ovfTick
  | .clkAdv n => .clkAdv n

/-- The state after a tick's latch and snapshot: the gains of HREG, CAP after the gaps, the validity of the snapshot, and the
tick's input taken (46_coordinator R236, R237). -/
def latched (s : State) : State :=
  let sc := takeSnapshot s.par (tickInput f32Num s.env) s.cap
  { s with
    pi := { s.pi with kp := s.hreg.kp, ki := s.hreg.ki }
    cap := sc.2
    co := { s.co with hallValid := hallValid sc.1.raw sc.1.timedOut }
    env := { s.env with ticks := s.env.ticks.tail, tickNo := s.env.tickNo + 1 } }

/-- The snapshot of the coming tick (46_coordinator R237). -/
def tickSnapshot (s : State) : Snapshot := (takeSnapshot s.par (tickInput f32Num s.env) s.cap).1

/-- Effective enable of the coming tick (46_coordinator R233). -/
def tickEnabled (s : State) : Bool := s.hreg.en && (tickInput f32Num s.env).voltOk

/-- The PWM port after `Drive(vd, vq, θ)` in a tick of `s` that samples `vdc` (46_coordinator R244). -/
def driven (s : State) (vdc vd vq theta : F32) : Pwm :=
  let l := limitVoltage f32Num vd vq s.cfg.vLimit
  let v := invPark f32Num l.1 l.2 theta
  let d := svpwm f32Num s.par.svK v.1 v.2 (if fIsFinite vdc then vdc else 0#32) s.cfg.maxDuty
  ⟨true, 0b111#3, d.1, d.2.1, d.2.2⟩

/-- The coming tick is one of a calibration: a request is pending, or a session goes on (46_coordinator R238, R239). -/
def calibrating (s : State) : Prop := s.co.calReq = true ∨ s.co.mode = .calibration

/-- The coming tick is an enabled OpenLoop tick that hands off to the closed loop (46_coordinator R240, R241). -/
def handsOff (s : State) : Prop :=
  tickEnabled s = true ∧ s.co.mode = .openLoop ∧ s.co.calReq = false ∧
    hallValid (tickSnapshot s).raw (tickSnapshot s).timedOut = true ∧ olReached f32Num s.ol = true

/-- The coming tick runs OL_RESET: it is disabled, or a calibration that fails (46_coordinator R234, R235, R249). -/
def restartsRamp (s : State) : Prop :=
  tickEnabled s = false ∨ (calibrating s ∧ (tickInput f32Num s.env).cal.status = .failed)

/-- The state in which a tick of Calibration mode calls the Calibrator: a pending request is consumed first
(46_coordinator R239), then the estimator runs, then `CalStep` is called with the argument of R246. -/
def calSession (s : State) : State :=
  let b := latched s
  let c :=
    if s.co.calReq then
      { b with
        co := { b.co with calReq := false, mode := .calibration, vq := 0#32 }
        ramp := ⟨0#32⟩
        pi := if s.co.mode = .calibration then b.pi else { b.pi with integral := 0#32, lastOutput := 0#32 }
        env := { b.env with calTorque := s.co.calTorqueReq } }
    else b
  let e := estUpdate f32Num s.par s.cfg (tickSnapshot s) s.est
  { c with
    est := e
    env := { c.env with
      calStepIn := some ⟨tickSnapshot s, e.mech, e.elec, e.valid, s.par.tCtrl, s.cfg.polePairs, c.env.calTorque⟩ } }

end Sys2Proof.Safety
end

