-- ==== Sys2Proof/Certificates/Slice0/Obligations.lean ====
section
/-! DEFINITION. The statements for the provers. Each docstring names the rule of spec/ it formalises. A statement speaks of the
block under NUM = F32 but where its title says NUM = REAL. -/

open Sys2Proof Sys2Proof.Machine Sys2Proof.Safety

/-! ### The command port -/

/-- Decode and encode agree on every operation with every operand (30_encoding R90, R93, R97). -/
def Obligations.EncodedOperationsDecode : Prop :=
  ∀ (i : Instr) (rest : List Word), decode (encode i ++ rest) = .instr i rest

/-- The words that decode to an operation are its encoding and no others: no bit of a legal word is ignored
(30_encoding R90, R94, R97). -/
def Obligations.DecodedWordsAreTheEncoding : Prop :=
  ∀ (ws : List Word) (i : Instr) (rest : List Word), decode ws = .instr i rest → ws = encode i ++ rest

/-- Words of 95_test_vectors section 2.1 and of the opcode map, one of every family, decode as written there (30_encoding R93). -/
def Obligations.WrittenOutWordsDecode : Prop :=
  decode [0x00000000#32] = .instr .nop [] ∧
  decode [0x00000501#32] = .instr (.hallIn 0b101#3) [] ∧
  decode [0x0CF85003#32] = .instr (.clkAdv 850000#24) [] ∧
  decode [0xFFFFFF03#32] = .instr (.clkAdv 16777215#24) [] ∧
  decode [0x00000013#32] = .instr .estSetOffset [] ∧
  decode [0x00000022#32] = .instr .limitV [] ∧
  decode [0x00000030#32] = .instr .svpwm [] ∧
  decode [0x00000044#32] = .instr .piSetSym [] ∧
  decode [0x00000052#32] = .instr .olUpdate [] ∧
  decode [0x00000061#32] = .instr .rampSeed [] ∧
  decode [0x00000070#32] = .instr .ctrlTick [] ∧
  decode [0x00001071#32] = .instr (.regRead 0x10#8) [] ∧
  decode [0x00000172#32, 0x43C80000#32] = .instr (.regWrite 0x01#8 0x43C80000#32) [] ∧
  decode [0x0000007F#32] = .instr .reset []

/-- A step runs the operation at the head of the command words, with that operation's words taken from the port
(20_memory R77, R81). The second clause is the MODEL's choice (log 9): where no whole operation is there, nothing happens. -/
def Obligations.StepRunsDecodedOperation : Prop :=
  ∀ s : State,
    (∀ i rest, decode s.env.stream = .instr i rest →
      step s = exec i { s with env := { s.env with stream := rest } }) ∧
    (decode s.env.stream = .waiting → step s = .next s)

/-- An illegal command word raises ILLEGAL_OP and does nothing else, and the word after it is not consumed (30_encoding R94). -/
def Obligations.IllegalWordRaisesIllegalOp : Prop :=
  ∀ (s : State) (w : Word) (rest : List Word), s.env.stream = w :: rest →
    let op := w.extractLsb' 0 8
    let formatN : List (BitVec 8) := [0x00, 0x02, 0x10, 0x11, 0x12, 0x13, 0x20, 0x21, 0x22, 0x30, 0x40, 0x41, 0x42, 0x43, 0x44,
      0x50, 0x51, 0x52, 0x53, 0x54, 0x60, 0x61, 0x70, 0x7F]
    ((op ∉ formatN ∧ op ∉ ([0x01, 0x03, 0x71, 0x72] : List (BitVec 8))) ∨
      (op ∈ formatN ∧ w.extractLsb' 8 24 ≠ 0#24) ∨
      (op = 0x01#8 ∧ w.extractLsb' 11 21 ≠ 0#21) ∨
      ((op = 0x71#8 ∨ op = 0x72#8) ∧ w.extractLsb' 16 16 ≠ 0#16)) →
    step s = .next (recorded 4 { s with env := { s.env with stream := rest } })

/-- With the test port disabled every unit operation raises ILLEGAL_OP and does nothing else (30_encoding R95). -/
def Obligations.UnitOperationsNeedTestPort : Prop :=
  ∀ (i : Instr) (s : State), i.testPortOnly = true → s.par.testPortEn = false → exec i s = .next (recorded 4 s)

/-- The block never halts: every step answers a next state, but for a RESET whose configuration the spec refuses
(70_reset_and_hazards R329, R311). -/
def Obligations.BlockNeverHalts : Prop :=
  ∀ s : State, goesOn (step s) ∨
    (∃ rest, decode s.env.stream = .instr .reset rest) ∧ cfgValid f32Num s.par.wDuty s.env.cfgIn = false ∧
      step s = .refused .cfgOutOfRange

/-- No operation changes the parameters, and only RESET changes the sampled configuration (00_scope R5, R7; 10_state R20). The
clauses on the waiting words and the configuration input are about the MODEL's own fields (logs 8, 9, 28); that a RESET keeps the
waiting words is the MODEL's choice (log 26). -/
def Obligations.OperationsKeepParametersAndPort : Prop :=
  ∀ (i : Instr) (s t : State), exec i s = .next t →
    t.par = s.par ∧ t.env.stream = s.env.stream ∧
    (i ≠ .reset → t.cfg = s.cfg ∧ t.env.cfgIn = s.env.cfgIn ∧ t.env.cfgs = s.env.cfgs)

/-! ### HallCapture -/

/-- HALL_IN on a qualifying edge and on none (40_capture R110, R111). -/
def Obligations.HallInRecordsQualifyingEdges : Prop :=
  ∀ (lines : HallCode) (s : State),
    let old := s.cap.hallLines
    (((lines.getLsbD 0 ^^ lines.getLsbD 1) ^^ lines.getLsbD 2) ≠ ((old.getLsbD 0 ^^ old.getLsbD 1) ^^ old.getLsbD 2) →
      exec (.hallIn lines) s = .next { s with cap := { s.cap with
        hallLines := lines, rawState := lines, periodCycles := s.cap.cnt, captureTimestamp := s.cap.tb,
        cnt := 0, stallCount := 0, timedOut := false } }) ∧
    (((lines.getLsbD 0 ^^ lines.getLsbD 1) ^^ lines.getLsbD 2) = ((old.getLsbD 0 ^^ old.getLsbD 1) ^^ old.getLsbD 2) →
      exec (.hallIn lines) s = .next { s with cap := { s.cap with hallLines := lines } })

/-- OVF_TICK counts, saturating at 2^W_STALL − 1, and times out strictly above the limit; CLK_ADV advances both counters, each
modulo its own width; neither touches anything else (40_capture R112, R113). -/
def Obligations.OvfTickAndClkAdvCount : Prop :=
  ∀ s : State,
    let n := if s.cap.stallCount < 2 ^ s.par.wStall - 1 then s.cap.stallCount + 1 else s.cap.stallCount
    (s.par.stallLimit < n →
      exec .ovfTick s = .next { s with cap := { s.cap with stallCount := n, timedOut := true, periodCycles := 0 } }) ∧
    (n ≤ s.par.stallLimit → exec .ovfTick s = .next { s with cap := { s.cap with stallCount := n } }) ∧
    ∀ n : BitVec 24, exec (.clkAdv n) s = .next { s with cap := { s.cap with
      cnt := (s.cap.cnt + n.toNat) % 2 ^ s.par.wCnt
      tb := (s.cap.tb + n.toNat) % 2 ^ s.par.wTs } }

/-- After n overflow ticks without an edge the stall count is n and the timeout is set exactly when n exceeds the limit: with a
limit of 2600 the 2601st tick is the first that sets it (40_capture R112). -/
def Obligations.TimeoutComesAfterStallLimit : Prop :=
  ∀ (par : Par) (c : Cap) (n : Nat), c.stallCount = 0 → c.timedOut = false → n < 2 ^ par.wStall →
    let c' := captureAll par (List.replicate n .ovfTick) c
    c'.stallCount = n ∧ c'.timedOut = decide (par.stallLimit < n) ∧
      c'.periodCycles = (if par.stallLimit < n then 0 else c.periodCycles) ∧
      c'.rawState = c.rawState ∧ c'.captureTimestamp = c.captureTimestamp ∧ c'.cnt = c.cnt

/-- No sequence of capture operations stops the block or touches anything but CAP: the block runs through all of them and is
ready for the words after them (60_exceptions R296, R282). -/
def Obligations.CaptureStreamNeverStopsBlock : Prop :=
  ∀ (ops : List CaptureOp) (rest : List Word) (s : State),
    s.env.stream = ops.flatMap (fun op => encode (captureInstr op)) ++ rest →
    Host.Core.run core ops.length s =
      .next { s with cap := captureAll s.par ops s.cap, env := { s.env with stream := rest } }

/-- The five reads of a tick's snapshot are taken in the order raw, period, timed_out, timestamp, time base, with the capture
operations of one gap between two consecutive reads; with empty gaps the snapshot is untorn (70_reset_and_hazards R320). -/
def Obligations.SnapshotReadsInOrder : Prop :=
  ∀ (par : Par) (inp : TickInput) (c : Cap),
    let sc := takeSnapshot par inp c
    let after := fun ops => captureAll par ops c
    sc.1.raw = c.rawState ∧
    sc.1.period = (after inp.gap1).periodCycles ∧
    sc.1.timedOut = (after (inp.gap1 ++ inp.gap2)).timedOut ∧
    sc.1.ts = (after (inp.gap1 ++ inp.gap2 ++ inp.gap3)).captureTimestamp ∧
    sc.1.now = (after (inp.gap1 ++ inp.gap2 ++ inp.gap3 ++ inp.gap4)).tb ∧
    sc.2 = after (inp.gap1 ++ inp.gap2 ++ inp.gap3 ++ inp.gap4)

/-! ### HallPositionEstimator -/

/-- EST_UPDATE. On a valid capture: index, direction, revolution count, filtered speed, angles (41_estimator R132 to R139). On an
invalid or timed-out one: speed forced to 0, angle held, electrical angle still reported (R140). With the test port disabled:
ILLEGAL_OP (R141). -/
def Obligations.EstUpdateFollowsTheCapture : Prop :=
  ∀ s : State,
    (s.par.testPortEn = false → exec .estUpdate s = .next (recorded 4 s)) ∧
    (s.par.testPortEn = true → (s.cap.timedOut = true ∨ s.cap.rawState = 0#3 ∨ s.cap.rawState = 7#3) →
      let elec := normAngle f32Num (fSub (fMul s.est.mech (fOfNat s.cfg.polePairs)) s.est.offset)
      exec .estUpdate s = .next { s with
        est := { s.est with speed := 0#32, valid := false, elec := elec }
        opr := { s.opr with res0 := s.est.mech, res1 := elec, res2 := 0#32 } }) ∧
    ∀ idx : Fin 6, s.par.testPortEn = true → s.cap.timedOut = false → hallIndex s.par.hallMap s.cap.rawState = some idx →
      let n6 := 6 * s.cfg.polePairs
      let d := fun p : Fin 6 => (idx.val + 6 - p.val) % 6
      let dir := match s.est.prevIndex with
        | none => s.est.dir
        | some p => if d p = 1 then .forward else if d p = 5 then .backward else s.est.dir
      let base := match s.est.prevIndex with
        | none => s.est.base
        | some p =>
          if p.val = 5 ∧ idx.val = 0 then (s.est.base + 6) % n6
          else if p.val = 0 ∧ idx.val = 5 then (s.est.base + n6 - 6) % n6
          else s.est.base
      let inst := if s.cap.periodCycles = 0 then 0#32
        else fMul (if dir = .forward then 0x3F800000#32 else 0xBF800000#32)
          (fDiv (fMul (fDiv s.par.clockHz (fOfNat s.cap.periodCycles)) 0x42700000#32) (fOfNat n6))
      let speed := fAdd (fMul s.cfg.alpha inst) (fMul (fSub 0x3F800000#32 s.cfg.alpha) s.est.speed)
      let sa := normAngle f32Num (fMul (fOfNat ((base + idx.val) % n6)) (fDiv twoPi (fOfNat n6)))
      let mech := if s.cfg.interpEn = true ∧ fLt s.cfg.interpMinRpm (fAbs speed) = true then
          normAngle f32Num (fAdd sa (fMul (fDiv (fMul speed twoPi) 0x42700000#32)
            (fDiv (fOfNat (((s.cap.tb : Int) - s.cap.captureTimestamp) % 2 ^ s.par.wTs).toNat) s.par.clockHz)))
        else sa
      let elec := normAngle f32Num (fSub (fMul mech (fOfNat s.cfg.polePairs)) s.est.offset)
      exec .estUpdate s = .next { s with
        est := { s.est with
          prevIndex := some idx, base := base, dir := dir, speed := speed, mech := mech, elec := elec, valid := true }
        opr := { s.opr with res0 := mech, res1 := elec, res2 := speed } }

/-- EST_RESET clears the internal state and keeps the applied calibration; EST_SEED_FILTER and EST_SET_OFFSET apply a finite
operand; each with its BAD_VALUE and ILLEGAL_OP cases (41_estimator R142, R143, R144). -/
def Obligations.EstResetSeedAndOffset : Prop :=
  ∀ s : State,
    unitRun .estReset s { s with est := { s.est with
      prevIndex := none, base := 0, dir := .forward, speed := 0#32, mech := 0#32, valid := false,
      elec := normAngle f32Num (fSub 0#32 s.est.offset) } } ∧
    unitCase .estSeedFilter (fIsFinite s.opr.a0) s { s with est := { s.est with speed := s.opr.a0 } } ∧
    unitCase .estSetOffset (fIsFinite s.opr.a0) s { s with est := { s.est with
      offset := normAngle f32Num s.opr.a0
      dirInv := s.opr.a1.getLsbD 0
      elec := normAngle f32Num (fSub (fMul s.est.mech (fOfNat s.cfg.polePairs)) (normAngle f32Num s.opr.a0)) } }

/-- The angle normalisation, in the three steps of its rule (41_estimator R131). -/
def Obligations.AngleNormalisationHasThreeSteps : Prop :=
  ∀ v : F32,
    let r := fSub v (fMul twoPi (fFloor (fDiv v twoPi)))
    let r' := if fLt r 0#32 = true then fAdd r twoPi else r
    normAngle f32Num v = if fLe twoPi r' = true then 0#32 else r'

/-- Under NUM = REAL the normalised angle lies in [0, 2π) and differs from the angle by a multiple of 2π (41_estimator R131). -/
def Obligations.RealAngleNormalisationIsTheRepresentative : Prop :=
  ∀ v : ℝ, 0 ≤ normAngle realNum v ∧ normAngle realNum v < 2 * Real.pi ∧
    ∃ k : ℤ, v - normAngle realNum v = 2 * Real.pi * k

/-- The index of a valid code is its entry of HALL_MAP; the codes 0 and 7 have none; distinct valid codes have distinct indices,
and every index has a code (41_estimator R132, 00_scope R6). -/
def Obligations.HallIndexIsInjective : Prop :=
  ∀ m : HallMap,
    (hallIndex m 1#3 = some m.code1 ∧ hallIndex m 2#3 = some m.code2 ∧ hallIndex m 3#3 = some m.code3 ∧
      hallIndex m 4#3 = some m.code4 ∧ hallIndex m 5#3 = some m.code5 ∧ hallIndex m 6#3 = some m.code6 ∧
      hallIndex m 0#3 = none ∧ hallIndex m 7#3 = none) ∧
    (∀ a b idx, hallIndex m a = some idx → hallIndex m b = some idx → a = b) ∧
    ∀ idx, ∃ raw, hallIndex m raw = some idx

/-- EST.dir_inv is stored and read by no rule: two states that differ only in it step to answers that differ only in it
(41_estimator R144, U23). -/
def Obligations.DirInvHasNoEffect : Prop :=
  ∀ (i : Instr) (s : State) (b : Bool),
    agreeUpTo forgetDirInv (exec i s) (exec i { s with est := { s.est with dirInv := b } })

/-! ### CoordinateTransform and SVPWM -/

/-- INV_PARK and INV_CLARKE, with their BAD_VALUE and ILLEGAL_OP cases (42_transform R160, R161). -/
def Obligations.InverseTransformsGiveTheirFormulas : Prop :=
  ∀ s : State,
    unitCase .invPark (fIsFinite s.opr.a0 && fIsFinite s.opr.a1 && fIsFinite s.opr.a2) s { s with opr := { s.opr with
      res0 := fSub (fMul s.opr.a0 (Config.cos s.opr.a2)) (fMul s.opr.a1 (Config.sin s.opr.a2))
      res1 := fAdd (fMul s.opr.a0 (Config.sin s.opr.a2)) (fMul s.opr.a1 (Config.cos s.opr.a2)) } } ∧
    unitCase .invClarke (fIsFinite s.opr.a0 && fIsFinite s.opr.a1) s { s with opr := { s.opr with
      res0 := s.opr.a0
      res1 := fAdd (fNeg (fDiv s.opr.a0 0x40000000#32)) (fMul (fDiv sqrt3 0x40000000#32) s.opr.a1)
      res2 := fSub (fNeg (fDiv s.opr.a0 0x40000000#32)) (fMul (fDiv sqrt3 0x40000000#32) s.opr.a1) } }

/-- Under NUM = REAL the three phase voltages of the inverse Clarke transform sum to 0 for every vector (42_transform R161). -/
def Obligations.RealPhaseVoltagesBalance : Prop :=
  ∀ va vb : ℝ, (invClarke realNum va vb).1 + (invClarke realNum va vb).2.1 + (invClarke realNum va vb).2.2 = 0

/-- LIMIT_V scales a vector whose magnitude exceeds the limit and passes any other unchanged; a negative limit is BAD_VALUE
(42_transform R162). -/
def Obligations.LimitVScalesOnlyAboveTheLimit : Prop :=
  ∀ s : State,
    let mag := Config.sqrt (fAdd (fMul s.opr.a0 s.opr.a0) (fMul s.opr.a1 s.opr.a1))
    let f := fDiv s.opr.a2 mag
    unitCase .limitV (fIsFinite s.opr.a0 && fIsFinite s.opr.a1 && fIsFinite s.opr.a2 && fLe 0#32 s.opr.a2) s
      { s with opr := { s.opr with
        res0 := if fLt s.opr.a2 mag then fMul s.opr.a0 f else s.opr.a0
        res1 := if fLt s.opr.a2 mag then fMul s.opr.a1 f else s.opr.a1 } }

/-- The sector of each sign pattern and the raw phase values of each sector pair, for any scale SV_K (43_svpwm R173, R174). -/
def Obligations.SectorAndRawValueTables : Prop :=
  svSector true true false = some .s1 ∧ svSector true true true = some .s2 ∧ svSector true false true = some .s3 ∧
  svSector false false true = some .s4 ∧ svSector false false false = some .s5 ∧ svSector false true false = some .s6 ∧
  svSector true false false = none ∧ svSector false true true = none ∧
  ∀ k x y z : F32,
    let v14 := (fMul k y, fMul k (fAdd x z), fMul (fNeg k) y)
    let v25 := (fMul k (fSub y z), fMul k x, fMul (fNeg k) x)
    let v36 := (fMul (fNeg k) z, fMul k z, fMul (fNeg k) (fAdd x y))
    svRaw f32Num k (some .s1) x y z = v14 ∧ svRaw f32Num k (some .s4) x y z = v14 ∧
    svRaw f32Num k (some .s2) x y z = v25 ∧ svRaw f32Num k (some .s5) x y z = v25 ∧
    svRaw f32Num k (some .s3) x y z = v36 ∧ svRaw f32Num k (some .s6) x y z = v36 ∧
    svRaw f32Num k none x y z = (0#32, 0#32, 0#32)

/-- SVPWM: the safe default, or the sector's raw values of the normalised vector, as duties; with its BAD_VALUE and ILLEGAL_OP
cases (43_svpwm R170 to R176). -/
def Obligations.SvpwmGivesItsDuties : Prop :=
  ∀ s : State,
    let max := s.opr.a3.toNat
    let a := fDiv s.opr.a0 s.opr.a2
    let b := fDiv s.opr.a1 s.opr.a2
    let y := fDiv (fAdd b (fMul sqrt3 a)) 0x40000000#32
    let z := fDiv (fSub b (fMul sqrt3 a)) 0x40000000#32
    let v := if fLe s.opr.a2 0#32 then (0#32, 0#32, 0#32)
      else svRaw f32Num s.par.svK (svSector (fLt 0#32 b) (fLt 0#32 y) (fLt 0#32 z)) b y z
    let duty := fun value =>
      BitVec.ofNat 32 (clampRound (fMul (fDiv (fAdd value 0x3F800000#32) 0x40000000#32) (fOfNat max)) max)
    unitCase .svpwm
      (fIsFinite s.opr.a0 && fIsFinite s.opr.a1 && fIsFinite s.opr.a2 && decide (1 ≤ max ∧ max < 2 ^ s.par.wDuty)) s
      { s with opr := { s.opr with res0 := duty v.1, res1 := duty v.2.1, res2 := duty v.2.2 } }

/-- Every duty SVPWM gives lies in [0, max_duty]; a non-positive bus voltage gives half of max_duty, rounded away from zero, on
all three phases; and a finite value is brought to a duty by rounding it to the nearest integer, halves away from zero, and clamping
(43_svpwm R170, R175). That the duty of a value that is a NaN lies in the range is the MODEL's choice (log 5). -/
def Obligations.SvpwmRangeAndSafeDefault : Prop :=
  (∀ (k va vb vdc : F32) (max : Nat),
    let d := svpwm f32Num k va vb vdc max
    (d.1 ≤ max ∧ d.2.1 ≤ max ∧ d.2.2 ≤ max) ∧
    (1 ≤ max → max ≤ 65535 → fLe vdc 0#32 = true →
      d.1 = (max + 1) / 2 ∧ d.2.1 = (max + 1) / 2 ∧ d.2.2 = (max + 1) / 2)) ∧
  ∀ (value : F32) (max : Nat),
    dutyOf f32Num max value = clampRound (fMul (fDiv (fAdd value 0x3F800000#32) 0x40000000#32) (fOfNat max)) max ∧
    (fIsFinite value = true → ∃ n : Int,
      |fVal value - n| ≤ 1 / 2 ∧ (|fVal value - n| = 1 / 2 → |fVal value| < |(n : Rat)|) ∧
      clampRound value max = min n.toNat max)

/-! ### Value checks -/

/-- A unit operation that finds a non-finite operand, or one out of its range, raises BAD_VALUE and writes nothing else
(60_exceptions R298). -/
def Obligations.BadOperandsWriteNothing : Prop :=
  ∀ s : State, s.par.testPortEn = true →
    let bad := fun a : Word => fIsFinite a = false
    let o := s.opr
    let refuses := fun i : Instr => exec i s = .next (recorded 6 s)
    (bad o.a0 → refuses .estSeedFilter ∧ refuses .estSetOffset ∧ refuses .rampSeed) ∧
    (bad o.a0 ∨ bad o.a1 → refuses .invClarke ∧ refuses .piSetGains) ∧
    (bad o.a0 ∨ bad o.a1 ∨ bad o.a2 → refuses .invPark ∧ refuses .piUpdate) ∧
    (bad o.a0 ∨ bad o.a1 ∨ bad o.a2 ∨ fLt o.a2 0#32 = true → refuses .limitV) ∧
    (bad o.a0 ∨ bad o.a1 ∨ bad o.a2 ∨ o.a3.toNat = 0 ∨ 2 ^ s.par.wDuty ≤ o.a3.toNat → refuses .svpwm) ∧
    (bad o.a0 ∨ bad o.a1 ∨ fLe o.a1 o.a0 = true → refuses .piSetLimits) ∧
    (bad o.a0 ∨ fLe o.a0 0#32 = true → refuses .piSetSym) ∧
    (bad o.a0 ∨ bad o.a1 ∨ bad o.a2 ∨ bad o.a3 ∨ fLe o.a0 0#32 = true ∨ fLe o.a1 0#32 = true ∨ fLt o.a2 0#32 = true ∨
      fLt o.a3 0#32 = true ∨ fLt 0x3F800000#32 o.a3 = true → refuses .olInit) ∧
    (bad o.a0 ∨ fLt o.a0 0#32 = true → refuses .olUpdate) ∧
    (bad o.a0 ∨ bad o.a1 ∨ fLt o.a1 0#32 = true → refuses .rampUpdate)

/-! ### SpeedController -/

/-- PI_UPDATE: the anti-windup test reads the previous output, the integral is updated before the output; with its BAD_VALUE and
ILLEGAL_OP cases (44_pi R190). -/
def Obligations.PiUpdateFormsOutput : Prop :=
  ∀ s : State,
    let error := fSub s.opr.a0 s.opr.a1
    let integral := if fLt s.pi.outMin s.pi.lastOutput = true ∧ fLt s.pi.lastOutput s.pi.outMax = true then
        fAdd s.pi.integral (fMul error s.opr.a2) else s.pi.integral
    let output := fClamp (fAdd (fMul s.pi.kp error) (fMul s.pi.ki integral)) s.pi.outMin s.pi.outMax
    unitCase .piUpdate (fIsFinite s.opr.a0 && fIsFinite s.opr.a1 && fIsFinite s.opr.a2) s { s with
      pi := { s.pi with integral := integral, lastOutput := output }
      opr := { s.opr with res0 := output } }

/-- PI_RESET, PI_SET_GAINS, PI_SET_LIMITS and PI_SET_SYM, with their BAD_VALUE and ILLEGAL_OP cases (44_pi R191 to R194). -/
def Obligations.PiSettingsAreApplied : Prop :=
  ∀ s : State,
    unitRun .piReset s { s with pi := { s.pi with integral := 0#32, lastOutput := 0#32 } } ∧
    unitCase .piSetGains (fIsFinite s.opr.a0 && fIsFinite s.opr.a1) s
      { s with pi := { s.pi with kp := s.opr.a0, ki := s.opr.a1 } } ∧
    unitCase .piSetLimits (fIsFinite s.opr.a0 && fIsFinite s.opr.a1 && fLt s.opr.a0 s.opr.a1) s
      { s with pi := { s.pi with outMin := s.opr.a0, outMax := s.opr.a1 } } ∧
    unitCase .piSetSym (fIsFinite s.opr.a0 && fLt 0#32 s.opr.a0) s
      { s with pi := { s.pi with outMin := s.opr.a0 ^^^ 0x80000000#32, outMax := s.opr.a0 } }

/-- The PI output lies within its limits, whatever the operands (44_pi, derived from R190); and the clamp that forms it gives the
bound a value lies beyond, and the value itself where it lies between. What the clamp of a NaN gives within the limits is the
MODEL's free value (log 4). -/
def Obligations.PiOutputStaysWithinLimits : Prop :=
  (∀ (p : Pi) (setpoint measured dt : F32), fLt p.outMin p.outMax = true →
    let p' := piUpdate f32Num setpoint measured dt p
    fLe p.outMin p'.lastOutput = true ∧ fLe p'.lastOutput p.outMax = true) ∧
  ∀ v lo hi : F32, fLt lo hi = true →
    (fLt v lo = true → fClamp v lo hi = lo) ∧ (fLt hi v = true → fClamp v lo hi = hi) ∧
    (fLt lo v = true → fLt v hi = true → fClamp v lo hi = v)

/-- The integral changes, other than to 0, only where the previous output was strictly inside the limits, whatever the operation;
in the tick that hands off, whose PI reset makes the previous output 0, only where 0 is (44_pi R190, R191; 46_coordinator R241). -/
def Obligations.IntegralMovesOnlyInsideLimits : Prop :=
  ∀ (i : Instr) (s t : State), exec i s = .next t →
    (¬ (i = .ctrlTick ∧ handsOff s) → t.pi.integral = s.pi.integral ∨ t.pi.integral = 0#32 ∨
      (fLt s.pi.outMin s.pi.lastOutput = true ∧ fLt s.pi.lastOutput s.pi.outMax = true)) ∧
    (i = .ctrlTick ∧ handsOff s → t.pi.integral = 0#32 ∨
      (fLt s.pi.outMin 0#32 = true ∧ fLt 0#32 s.pi.outMax = true))

/-! ### OpenLoopStarter and ramp limiter -/

/-- OL_INIT with legal operands, and OL_RESET with the stored ones, with their BAD_VALUE and ILLEGAL_OP cases (45_openloop R210 to
R213). -/
def Obligations.OlInitAndResetRestartTheRamp : Prop :=
  ∀ s : State,
    let n6 := fOfNat (6 * s.cfg.polePairs)
    let T := fun rpm => fDiv 0x42700000#32 (fMul rpm n6)
    let start := fun init target accel duty : F32 => { s with ol := {
      initRpm := init, targetRpm := target, accel := accel, duty := duty, step := 0, elapsed := 0#32
      period := T init, minPeriod := T target, k := fDiv init (fAdd init (fMul accel (T init))) } }
    unitCase .olInit (fIsFinite s.opr.a0 && fIsFinite s.opr.a1 && fIsFinite s.opr.a2 && fIsFinite s.opr.a3 &&
        fLt 0#32 s.opr.a0 && fLt 0#32 s.opr.a1 && fLe 0#32 s.opr.a2 && fLe 0#32 s.opr.a3 && fLe s.opr.a3 0x3F800000#32) s
      (start s.opr.a0 s.opr.a1 s.opr.a2 s.opr.a3) ∧
    unitRun .olReset s (start s.ol.initRpm s.ol.targetRpm s.ol.accel s.ol.duty)

/-- OL_UPDATE: at most one step, strictly after the period; the results show the phase pattern of the step reached, row by row;
with its BAD_VALUE and ILLEGAL_OP cases (45_openloop R214, R217). -/
def Obligations.OlUpdateStepsOncePerPeriod : Prop :=
  ∀ s : State,
    let elapsed := fAdd s.ol.elapsed s.opr.a0
    let ol := if fLt s.ol.period elapsed then
        { s.ol with
          step := s.ol.step + 1
          elapsed := 0#32
          period := if fLt s.ol.minPeriod s.ol.period then fMax (fMul s.ol.period s.ol.k) s.ol.minPeriod else s.ol.period }
      else { s.ol with elapsed := elapsed }
    let dh := clampRound (fMul ol.duty (fOfNat s.cfg.maxDuty)) s.cfg.maxDuty
    let row : BitVec 3 × Nat × Nat × Nat := match ol.step with
      | 0 => (0b011#3, dh, 0, 0)
      | 1 => (0b101#3, dh, 0, 0)
      | 2 => (0b110#3, 0, dh, 0)
      | 3 => (0b011#3, 0, dh, 0)
      | 4 => (0b101#3, 0, 0, dh)
      | 5 => (0b110#3, 0, 0, dh)
    olPattern f32Num s.cfg ol = ⟨true, row.1, row.2.1, row.2.2.1, row.2.2.2⟩ ∧
    unitCase .olUpdate (fIsFinite s.opr.a0 && fLe 0#32 s.opr.a0) s { s with
      ol := ol
      opr := { s.opr with
        res0 := BitVec.ofNat 32 ol.step.val
        res1 := BitVec.ofNat 16 row.2.2.1 ++ BitVec.ofNat 16 row.2.1
        res2 := 0#13 ++ row.1 ++ BitVec.ofNat 16 row.2.2.2 } }

/-- OL_REACHED and OL_RPM show the step period, and change nothing but RES0; with their ILLEGAL_OP case (45_openloop R215,
R216). -/
def Obligations.OlReadoutsFollowThePeriod : Prop :=
  ∀ s : State,
    unitRun .olReached s { s with opr := { s.opr with
      res0 := if fLe s.ol.period s.ol.minPeriod then 1#32 else 0#32 } } ∧
    unitRun .olRpm s { s with opr := { s.opr with
      res0 := fDiv 0x42700000#32 (fMul s.ol.period (fOfNat (6 * s.cfg.polePairs))) } }

/-- Once the target is reached it stays reached until a restart: only OL_INIT, OL_RESET, RESET and a tick that runs OL_RESET (a
disabled one, or a calibration that fails) can undo it, and no advance of the ramp can (45_openloop R215). -/
def Obligations.TargetStaysReached : Prop :=
  (∀ (i : Instr) (s t : State), exec i s = .next t → olReached f32Num s.ol = true →
    i ≠ .olInit → i ≠ .olReset → i ≠ .reset → ¬ (i = .ctrlTick ∧ restartsRamp s) →
    olReached f32Num t.ol = true) ∧
  (∀ (dt : F32) (ol : Ol), olReached f32Num ol = true → olReached f32Num (olUpdate f32Num dt ol) = true)

/-- RAMP_UPDATE and RAMP_SEED, with their BAD_VALUE and ILLEGAL_OP cases (46_coordinator R230, R231). -/
def Obligations.RampFollowsTargetAtItsRate : Prop :=
  ∀ s : State,
    let slew := fMul s.cfg.rampRate s.opr.a1
    let rpm := fAdd s.ramp.rpm (fClamp (fSub s.opr.a0 s.ramp.rpm) (fNeg slew) slew)
    unitCase .rampUpdate (fIsFinite s.opr.a0 && fIsFinite s.opr.a1 && fLe 0#32 s.opr.a1) s
      { s with ramp := ⟨rpm⟩, opr := { s.opr with res0 := rpm } } ∧
    unitCase .rampSeed (fIsFinite s.opr.a0) s { s with ramp := ⟨s.opr.a0⟩ }

/-! ### The control tick -/

/-- A tick with effective enable 0: the disable action and nothing else, VOLT_INHIBIT where EN is set (46_coordinator R233,
R235). -/
def Obligations.DisabledTickShutsDown : Prop :=
  ∀ s : State, tickEnabled s = false →
    let b := if s.hreg.en then recorded 7 (latched s) else latched s
    exec .ctrlTick s = .next { b with
      pi := { b.pi with integral := 0#32, lastOutput := 0#32 }
      est := estReset f32Num s.est
      ol := olRestart f32Num s.cfg s.ol
      ramp := ⟨0#32⟩
      co := { b.co with mode := .openLoop, calReq := false, vq := 0#32 }
      pwm := ⟨false, 0b000#3, 0, 0, 0⟩ }

/-- An enabled OpenLoop tick that does not hand off drives the six-step pattern (46_coordinator R240). -/
def Obligations.OpenLoopTickDrivesPattern : Prop :=
  ∀ s : State, tickEnabled s = true → s.co.mode = .openLoop → s.co.calReq = false →
    (hallValid (tickSnapshot s).raw (tickSnapshot s).timedOut = false ∨ olReached f32Num s.ol = false) →
    let b := latched s
    let ol := olUpdate f32Num s.par.tCtrl s.ol
    exec .ctrlTick s = .next { b with
      est := estUpdate f32Num s.par s.cfg (tickSnapshot s) s.est
      ol := ol
      pwm := olPattern f32Num s.cfg ol
      co := { b.co with vq := 0#32 } }

/-- A ClosedLoopFoc tick with a valid snapshot: ramp, near-zero rule or PI, and the voltage pipeline (46_coordinator R242 to
R244). -/
def Obligations.FocTickDrivesSpeedLoop : Prop :=
  ∀ s : State, tickEnabled s = true → s.co.mode = .closedLoopFoc → s.co.calReq = false →
    hallValid (tickSnapshot s).raw (tickSnapshot s).timedOut = true →
    let b := latched s
    let e := estUpdate f32Num s.par s.cfg (tickSnapshot s) s.est
    let slew := fMul s.cfg.rampRate s.par.tCtrl
    let rpm := fAdd s.ramp.rpm (fClamp (fSub s.hreg.targetRpm s.ramp.rpm) (fNeg slew) slew)
    let near := fLt (fAbs rpm) s.cfg.zeroEpsRpm && fLt (fAbs e.speed) s.cfg.zeroEpsRpm
    let p := if near then { b.pi with integral := 0#32, lastOutput := 0#32 } else piUpdate f32Num rpm e.speed s.par.tCtrl b.pi
    let vq := if near then 0#32 else p.lastOutput
    exec .ctrlTick s = .next { b with
      est := e, ramp := ⟨rpm⟩, pi := p, co := { b.co with vq := vq }
      pwm := driven s (tickInput f32Num s.env).vDc 0#32 vq e.elec }

/-- An OpenLoop tick with a valid snapshot and the target reached hands off: estimator and ramp seeded with the open-loop speed,
PI reset, and the closed loop driven in the same tick (46_coordinator R240 to R242). -/
def Obligations.HandoffSeedsAndDrives : Prop :=
  ∀ s : State, handsOff s →
    let b := latched s
    let r := fDiv 0x42700000#32 (fMul s.ol.period (fOfNat (6 * s.cfg.polePairs)))
    let e := { estUpdate f32Num s.par s.cfg (tickSnapshot s) s.est with speed := r }
    let slew := fMul s.cfg.rampRate s.par.tCtrl
    let rpm := fAdd r (fClamp (fSub s.hreg.targetRpm r) (fNeg slew) slew)
    let near := fLt (fAbs rpm) s.cfg.zeroEpsRpm && fLt (fAbs r) s.cfg.zeroEpsRpm
    let p0 := { b.pi with integral := 0#32, lastOutput := 0#32 }
    let p := if near then p0 else piUpdate f32Num rpm r s.par.tCtrl p0
    let vq := if near then 0#32 else p.lastOutput
    exec .ctrlTick s = .next { b with
      est := e, ramp := ⟨rpm⟩, pi := p, co := { b.co with mode := .closedLoopFoc, vq := vq }
      pwm := driven s (tickInput f32Num s.env).vDc 0#32 vq e.elec }

/-- The safety stop of ClosedLoopFoc: duties, integral, ramp and q command zeroed, mode and enables kept, CAPTURE_TIMEOUT recorded
before HALL_INVALID (46_coordinator R245, 60_exceptions R287). -/
def Obligations.SafetyStopZeroesDuties : Prop :=
  ∀ s : State, tickEnabled s = true → s.co.mode = .closedLoopFoc → s.co.calReq = false →
    let sn := tickSnapshot s
    let badCode := sn.raw = 0#3 ∨ sn.raw = 7#3
    (sn.timedOut = true ∨ badCode) →
    let b := latched s
    let b1 := if sn.timedOut = true then recorded 2 b else b
    let b2 := if badCode then recorded 1 b1 else b1
    exec .ctrlTick s = .next { b2 with
      est := estUpdate f32Num s.par s.cfg sn s.est
      pwm := { s.pwm with dutyU := 0, dutyV := 0, dutyW := 0 }
      pi := { b.pi with integral := 0#32 }
      ramp := ⟨0#32⟩
      co := { b2.co with vq := 0#32 } }

/-- A tick of a running calibration drives the Calibrator's command (46_coordinator R239, R246, R247; that the command's
non-finite values are replaced before CO.vq takes them is the MODEL's choice, log 12). -/
def Obligations.CalibrationTickDrivesCommand : Prop :=
  ∀ s : State, tickEnabled s = true → calibrating s →
    let a := (tickInput f32Num s.env).cal
    a.status = .running →
    let c := calSession s
    let fin := fun v : F32 => if fIsFinite v then v else 0#32
    exec .ctrlTick s = .next { c with
      co := { c.co with vq := fin a.vq }
      pwm := driven s (tickInput f32Num s.env).vDc (fin a.vd) (fin a.vq) (fin a.theta) }

/-- A successful calibration applies the offset and enters ClosedLoopFoc with a zero vector (46_coordinator R248, R251). -/
def Obligations.CalibrationSuccessAppliesOffset : Prop :=
  ∀ s : State, tickEnabled s = true → calibrating s →
    let a := (tickInput f32Num s.env).cal
    a.status = .succeeded →
    let c := calSession s
    let off := normAngle f32Num (finitePattern a.offset)
    let elec := normAngle f32Num (fSub (fMul c.est.mech (fOfNat s.cfg.polePairs)) off)
    exec .ctrlTick s = .next { c with
      est := { c.est with offset := off, dirInv := a.dirInv, elec := elec }
      pi := { c.pi with integral := 0#32, lastOutput := 0#32 }
      ramp := ⟨0#32⟩
      co := { c.co with
        mode := .closedLoopFoc, vq := 0#32, calDone := true, calSuccess := true, calDirInv := a.dirInv, calOffset := off }
      pwm := driven s (tickInput f32Num s.env).vDc 0#32 0#32 elec }

/-- A failed calibration is recorded and reverts to OpenLoop with every controller reset and a zero vector (46_coordinator R249,
R234). -/
def Obligations.CalibrationFailureReverts : Prop :=
  ∀ s : State, tickEnabled s = true → calibrating s →
    let a := (tickInput f32Num s.env).cal
    a.status = .failed →
    let c := recorded 3 (calSession s)
    exec .ctrlTick s = .next { c with
      est := estReset f32Num c.est
      pi := { c.pi with integral := 0#32, lastOutput := 0#32 }
      ol := olRestart f32Num s.cfg s.ol
      ramp := ⟨0#32⟩
      co := { c.co with mode := .openLoop, vq := 0#32, calDone := true, calSuccess := false }
      pwm := driven s (tickInput f32Num s.env).vDc 0#32 0#32 0#32 }

/-- The mode changes only inside CTRL_TICK and RESET; the mode after every tick, with the condition of each edge of the transition
graph (46_coordinator R232). -/
def Obligations.ModeFollowsTransitionGraph : Prop :=
  (∀ (i : Instr) (s t : State), exec i s = .next t → t.co.mode ≠ s.co.mode → i = .ctrlTick ∨ i = .reset) ∧
  ∀ s t : State, exec .ctrlTick s = .next t →
    let en := tickEnabled s = true
    let inCal := calibrating s
    let status := (tickInput f32Num s.env).cal.status
    let ready := hallValid (tickSnapshot s).raw (tickSnapshot s).timedOut = true ∧ olReached f32Num s.ol = true
    (t.co.mode = .openLoop ↔ ¬ en ∨ (inCal ∧ status = .failed) ∨ (¬ inCal ∧ s.co.mode = .openLoop ∧ ¬ ready)) ∧
    (t.co.mode = .calibration ↔ en ∧ inCal ∧ status = .running) ∧
    (t.co.mode = .closedLoopFoc ↔ en ∧ ((inCal ∧ status = .succeeded) ∨
      (¬ inCal ∧ (s.co.mode = .closedLoopFoc ∨ (s.co.mode = .openLoop ∧ ready)))))

/-- Every tick, in every mode, leaves the PI with the gains HREG held at its start, consumes a pending request and leaves HREG,
OPR and CFG as they were (46_coordinator R236, R235, R239). -/
def Obligations.TickLatchesGainsAndConsumesRequest : Prop :=
  ∀ s t : State, exec .ctrlTick s = .next t →
    t.pi.kp = s.hreg.kp ∧ t.pi.ki = s.hreg.ki ∧ t.pi.outMin = s.pi.outMin ∧ t.pi.outMax = s.pi.outMax ∧
    t.co.calReq = false ∧ t.hreg = s.hreg ∧ t.opr = s.opr ∧ t.cfg = s.cfg ∧ t.co.calTorqueReq = s.co.calTorqueReq

/-! ### Host access -/

/-- REG_READ returns the word a register shows and has no other effect; a reserved index returns 0 and raises ILLEGAL_ACCESS
(46_coordinator R252, 10_state R54). -/
def Obligations.RegReadReturnsView : Prop :=
  ∀ (idx : BitVec 8) (s : State),
    (∀ w, view f32Num s idx = some w → exec (.regRead idx) s = .next { s with env := { s.env with readValue := w } }) ∧
    (((0x05 ≤ idx.toNat ∧ idx.toNat ≤ 0x07) ∨ idx.toNat = 0x0F ∨ 0x1D ≤ idx.toNat) →
      exec (.regRead idx) s = .next (recorded 5 { s with env := { s.env with readValue := 0#32 } })) ∧
    (view f32Num s idx = none ↔ (0x05 ≤ idx.toNat ∧ idx.toNat ≤ 0x07) ∨ idx.toNat = 0x0F ∨ 0x1D ≤ idx.toNat)

/-- The register map of the value registers: which field each index shows (10_state R35 to R40, R42 to R53). That PERIOD,
STALL_COUNT, DUTY_UV and DUTY_W show the low bits of a value wider than their field is the MODEL's choice (log 17); of a value that
fits they show the value. -/
def Obligations.RegisterMapShowsFields : Prop :=
  ∀ s : State,
    view f32Num s 0x01 = some s.hreg.targetRpm ∧ view f32Num s 0x02 = some s.hreg.kp ∧ view f32Num s 0x03 = some s.hreg.ki ∧
    view f32Num s 0x04 = some s.hreg.calTorque ∧ view f32Num s 0x08 = some s.opr.a0 ∧ view f32Num s 0x09 = some s.opr.a1 ∧
    view f32Num s 0x0A = some s.opr.a2 ∧ view f32Num s 0x0B = some s.opr.a3 ∧ view f32Num s 0x0C = some s.opr.res0 ∧
    view f32Num s 0x0D = some s.opr.res1 ∧ view f32Num s 0x0E = some s.opr.res2 ∧ view f32Num s 0x11 = some s.est.speed ∧
    view f32Num s 0x12 = some s.est.elec ∧ view f32Num s 0x13 = some s.est.mech ∧
    view f32Num s 0x14 = some (BitVec.ofNat 32 s.cap.periodCycles) ∧
    view f32Num s 0x15 = some (BitVec.ofNat 16 s.pwm.dutyV ++ BitVec.ofNat 16 s.pwm.dutyU) ∧
    view f32Num s 0x16 = some (0#16 ++ BitVec.ofNat 16 s.pwm.dutyW) ∧ view f32Num s 0x17 = some s.est.offset ∧
    view f32Num s 0x18 = some (0#16 ++ s.co.fault) ∧ view f32Num s 0x19 = some (BitVec.ofNat 32 s.cap.stallCount) ∧
    view f32Num s 0x1A = some (BitVec.ofNat 32 s.est.base) ∧ view f32Num s 0x1B = some s.ramp.rpm ∧
    view f32Num s 0x1C = some s.co.vq

/-- Under NUM = REAL a read of a real-valued register shows the binary32 nearest to its value, ties to even, and a write stores the
exact value of the pattern written, CAL_TORQUE's clamped (30_encoding R103; 10_state R35 to R38). -/
def Obligations.RealRegistersShowNearestAndTakeExact : Prop :=
  ∀ s : Sys2Proof.Machine.State ℝ ℝ,
    (view realNum s 0x01 = some (realBits32 s.hreg.targetRpm) ∧ view realNum s 0x02 = some (realBits32 s.hreg.kp) ∧
      view realNum s 0x03 = some (realBits32 s.hreg.ki) ∧ view realNum s 0x04 = some (realBits32 s.hreg.calTorque) ∧
      view realNum s 0x11 = some (realBits32 s.est.speed) ∧ view realNum s 0x12 = some (realBits32 s.est.elec) ∧
      view realNum s 0x13 = some (realBits32 s.est.mech) ∧ view realNum s 0x17 = some (realBits32 s.est.offset) ∧
      view realNum s 0x1B = some (realBits32 s.ramp.rpm) ∧ view realNum s 0x1C = some (realBits32 s.co.vq)) ∧
    (∀ x : ℝ, |x| < 2 ^ 128 - 2 ^ 103 → fIsFinite (realBits32 x) = true ∧
      ∀ z : F32, fIsFinite z = true → |(fVal (realBits32 x) : ℝ) - x| ≤ |(fVal z : ℝ) - x| ∧
        (|(fVal (realBits32 x) : ℝ) - x| = |(fVal z : ℝ) - x| → fVal (realBits32 x) ≠ fVal z →
          (realBits32 x).getLsbD 0 = false)) ∧
    ∀ data : Word, fIsFinite data = true →
      execOver realNum (.regWrite 0x01 data) s = .next { s with hreg := { s.hreg with targetRpm := (fVal data : ℝ) } } ∧
      execOver realNum (.regWrite 0x02 data) s = .next { s with hreg := { s.hreg with kp := (fVal data : ℝ) } } ∧
      execOver realNum (.regWrite 0x03 data) s = .next { s with hreg := { s.hreg with ki := (fVal data : ℝ) } } ∧
      execOver realNum (.regWrite 0x04 data) s =
        .next { s with hreg := { s.hreg with calTorque := min (max (fVal data : ℝ) (1 / 10)) (1 / 2) } }

/-- Every field of STATUS and of CTRL at its bit position, reserved bits 0 (10_state R41, R34, R33). -/
def Obligations.StatusAndCtrlFields : Prop :=
  ∀ s : State, ∃ st ct : Word, view f32Num s 0x10 = some st ∧ view f32Num s 0x00 = some ct ∧
    st.extractLsb' 0 2 = (match s.co.mode with | .openLoop => 0#2 | .closedLoopFoc => 1#2 | .calibration => 2#2) ∧
    st.getLsbD 2 = s.pwm.moe ∧ st.extractLsb' 3 3 = s.pwm.phaseEn ∧ st.getLsbD 6 = s.co.hallValid ∧
    st.getLsbD 7 = s.cap.timedOut ∧ st.extractLsb' 8 3 = s.cap.rawState ∧ st.getLsbD 11 = s.co.calDone ∧
    st.getLsbD 12 = s.co.calSuccess ∧ st.getLsbD 13 = s.co.calDirInv ∧ st.getLsbD 14 = fLe s.ol.period s.ol.minPeriod ∧
    st.getLsbD 15 = false ∧ st.extractLsb' 16 4 = s.co.lastFault ∧ st.extractLsb' 20 12 = 0#12 ∧
    ct.getLsbD 0 = s.hreg.en ∧ ct.getLsbD 1 = s.co.calReq ∧ ct.extractLsb' 2 30 = 0#30

/-- REG_WRITE by index: CTRL (EN, the request with its torque latched, and ESTOP, which wins); the value registers (stored where
finite, CAL_TORQUE clamped, else BAD_VALUE and the register kept); the operand registers (any word); FAULT (exactly the bits
written 1 cleared, LAST_FAULT kept); every other index ILLEGAL_ACCESS and no other effect (46_coordinator R253). -/
def Obligations.RegWriteActsByIndex : Prop :=
  ∀ (data : Word) (s : State),
    exec (.regWrite 0x00 data) s = .next { s with
      hreg := { s.hreg with en := if data.getLsbD 2 then false else data.getLsbD 0 }
      co := if data.getLsbD 1 then { s.co with calReq := true, calTorqueReq := s.hreg.calTorque } else s.co } ∧
    (fIsFinite data = true →
      exec (.regWrite 0x01 data) s = .next { s with hreg := { s.hreg with targetRpm := data } } ∧
      exec (.regWrite 0x02 data) s = .next { s with hreg := { s.hreg with kp := data } } ∧
      exec (.regWrite 0x03 data) s = .next { s with hreg := { s.hreg with ki := data } } ∧
      exec (.regWrite 0x04 data) s = .next { s with hreg := { s.hreg with
        calTorque := fMin (fMax data 0x3DCCCCCD#32) 0x3F000000#32 } }) ∧
    (fIsFinite data = false → ∀ idx ∈ ([0x01, 0x02, 0x03, 0x04] : List (BitVec 8)),
      exec (.regWrite idx data) s = .next (recorded 6 s)) ∧
    exec (.regWrite 0x08 data) s = .next { s with opr := { s.opr with a0 := data } } ∧
    exec (.regWrite 0x09 data) s = .next { s with opr := { s.opr with a1 := data } } ∧
    exec (.regWrite 0x0A data) s = .next { s with opr := { s.opr with a2 := data } } ∧
    exec (.regWrite 0x0B data) s = .next { s with opr := { s.opr with a3 := data } } ∧
    (∃ f : BitVec 16, exec (.regWrite 0x18 data) s = .next { s with co := { s.co with fault := f } } ∧
      ∀ c, f.getLsbD c = (s.co.fault.getLsbD c && !data.getLsbD c)) ∧
    ∀ idx : BitVec 8, idx ∉ ([0x00, 0x01, 0x02, 0x03, 0x04, 0x08, 0x09, 0x0A, 0x0B, 0x18] : List (BitVec 8)) →
      exec (.regWrite idx data) s = .next (recorded 5 s)

/-- The byte-addressed adapter: a word access at a multiple of 4 up to 1020 is the register access; any other alignment or size
raises ILLEGAL_ACCESS and does nothing else, a read returning 0 (20_memory R71, R73); the value a read returns stands in the MODEL's
record (log 15). An aligned word above 1020 has no effect in the spec: that it stops with a fault is the MODEL's choice (log 19). -/
def Obligations.AdapterMapsWordAccesses : Prop :=
  ∀ (addr size : Nat) (v : Word) (s : State),
    (addr % 4 = 0 → addr ≤ 1020 →
      memRead f32Num addr 4 s = exec (.regRead (BitVec.ofNat 8 (addr / 4))) s ∧
      memWrite f32Num addr 4 v s = exec (.regWrite (BitVec.ofNat 8 (addr / 4)) v) s) ∧
    (addr % 4 ≠ 0 ∨ size ≠ 4 →
      memRead f32Num addr size s = .next (recorded 5 { s with env := { s.env with readValue := 0#32 } }) ∧
      memWrite f32Num addr size v s = .next (recorded 5 s)) ∧
    (addr % 4 = 0 → 1020 < addr →
      memRead f32Num addr 4 s = .fault (.noSuchAddress addr) ∧ memWrite f32Num addr 4 v s = .fault (.noSuchAddress addr))

/-- NOP leaves the state unchanged; RESET samples the configuration input and puts every field at its reset value, the line levels
kept, or is refused for a configuration out of range; power-on does the same with the lines the environment draws (46_coordinator
R254, R255; 10_state R55; 70_reset_and_hazards R310, R311). That a reset keeps what else waits on the environment's side is the
MODEL's choice (log 26), and so is the record that stands at the configuration input after it (log 28). -/
def Obligations.ResetPutsResetValues : Prop :=
  ∀ s : State, exec .nop s = .next s ∧
    State.powerOn f32Num s.par s.cap.hallLines s.env = exec .reset s ∧
    (cfgValid f32Num s.par.wDuty s.env.cfgIn = false → exec .reset s = .refused .cfgOutOfRange) ∧
    (cfgValid f32Num s.par.wDuty s.env.cfgIn = true →
      let c := s.env.cfgIn
      let T := fun rpm => fDiv 0x42700000#32 (fMul rpm (fOfNat (6 * c.polePairs)))
      exec .reset s = .next { s with
        cfg := c
        cap := ⟨s.cap.hallLines, 0#3, 0, 0, false, 0, 0, 0⟩
        est := ⟨none, 0, .forward, 0#32, 0#32, normAngle f32Num (fSub 0#32 c.electricalOffset), c.electricalOffset,
          c.directionInversed, false⟩
        pi := ⟨c.kp, c.ki, 0#32, 0#32, fNeg c.piOutLimit, c.piOutLimit⟩
        ol := ⟨c.olInitRpm, c.olTargetRpm, c.olAccel, c.olDuty, 0, 0#32, T c.olInitRpm, T c.olTargetRpm,
          fDiv c.olInitRpm (fAdd c.olInitRpm (fMul c.olAccel (T c.olInitRpm)))⟩
        ramp := ⟨0#32⟩
        co := ⟨.openLoop, false, 0#32, false, 0#4, 0#16, false, false, false, 0#32, c.calTorque⟩
        pwm := ⟨false, 0b000#3, 0, 0, 0⟩
        hreg := ⟨false, 0#32, c.kp, c.ki, c.calTorque⟩
        opr := ⟨0#32, 0#32, 0#32, 0#32, 0#32, 0#32, 0#32⟩
        env := { s.env with cfgIn := s.env.cfgs.headD c, cfgs := s.env.cfgs.tail } })

/-! ### The whole machine -/

/-- A raise records its cause's code and sticky bit and changes nothing else (60_exceptions R281, R283); a sticky bit is cleared
only by a write of FAULT, which clears exactly the bits written 1 and keeps LAST_FAULT, or by RESET, which clears both (R284;
10_state R32). -/
def Obligations.FaultsAreRecordedAndSticky : Prop :=
  (∀ s : State, raiseFault .hallInvalid s = recorded 1 s ∧ raiseFault .captureTimeout s = recorded 2 s ∧
    raiseFault .calFailed s = recorded 3 s ∧ raiseFault .illegalOp s = recorded 4 s ∧
    raiseFault .illegalAccess s = recorded 5 s ∧ raiseFault .badValue s = recorded 6 s ∧
    raiseFault .voltInhibit s = recorded 7 s) ∧
  (∀ (i : Instr) (s t : State), exec i s = .next t → i ≠ .reset → (∀ data, i ≠ .regWrite 0x18 data) →
    ∀ c, s.co.fault.getLsbD c = true → t.co.fault.getLsbD c = true) ∧
  (∀ (data : Word) (s : State), ∃ f : BitVec 16,
    exec (.regWrite 0x18 data) s = .next { s with co := { s.co with fault := f } } ∧
      ∀ c, f.getLsbD c = (s.co.fault.getLsbD c && !data.getLsbD c)) ∧
  ∀ s t : State, exec .reset s = .next t → t.co.fault = 0#16 ∧ t.co.lastFault = 0#4

/-- The PWM port changes only inside CTRL_TICK and RESET; SVPWM and OL_UPDATE, like every other operation, leave it
(70_reset_and_hazards R330, R321). -/
def Obligations.PwmPortChangesOnlyInTickAndReset : Prop :=
  ∀ (i : Instr) (s t : State), exec i s = .next t → i ≠ .ctrlTick → i ≠ .reset → t.pwm = s.pwm

/-- CAP is written only by HALL_IN, OVF_TICK, CLK_ADV and RESET: any other operation leaves it, and a tick leaves it as the capture
operations in its own four gaps make it, in their order (10_state R23). The result registers are written only by unit operations and
RESET (10_state R40), HREG only by host writes and RESET (20_memory R78). -/
def Obligations.WritersOfCapResultsAndHreg : Prop :=
  ∀ (i : Instr) (s t : State), exec i s = .next t → i ≠ .reset →
    let inp := tickInput f32Num s.env
    ((∀ l, i ≠ .hallIn l) → i ≠ .ovfTick → (∀ n, i ≠ .clkAdv n) →
      t.cap = if i = .ctrlTick then captureAll s.par (inp.gap1 ++ inp.gap2 ++ inp.gap3 ++ inp.gap4) s.cap else s.cap) ∧
    (i.testPortOnly = false → t.opr.res0 = s.opr.res0 ∧ t.opr.res1 = s.opr.res1 ∧ t.opr.res2 = s.opr.res2) ∧
    ((∀ idx data, i ≠ .regWrite idx data) → t.hreg = s.hreg)

/-- Power-on answers a state exactly where the presented configuration is in its ranges, and the invariant of the reachable states
holds in it, for every parameter record, every configuration and every line level (10_state R55, R56; 70_reset_and_hazards R311). -/
def Obligations.InvHoldsAtPowerOn : Prop :=
  ∀ (par : Par) (lines : HallCode) (env : Env),
    (cfgValid f32Num par.wDuty env.cfgIn = true → ∃ t, State.powerOn f32Num par lines env = .next t ∧ Inv t) ∧
    (cfgValid f32Num par.wDuty env.cfgIn = false → State.powerOn f32Num par lines env = .refused .cfgOutOfRange)

/-- The invariant holds at the model's reset state, whose parameters and configuration are the MODEL's choice (log 7). -/
def Obligations.InvHoldsAtReset : Prop := Inv State.reset

/-- Every step keeps the invariant, from every state that has it (10_state R23, R24, R25, R29, R30, R34, R38; 40_capture R112, R113;
45_openloop R213; 46_coordinator R234; 60_exceptions R281). -/
def Obligations.EveryStepKeepsInv : Prop :=
  ∀ s t : State, Inv s → step s = .next t → Inv t

/-- Sums, differences, products and quotients of finite values are correctly rounded: to nearest, ties to even, to an infinity from
the overflow bound on; an exact zero is +0 in a sum but where both addends are negative zeros, and has the sign of the operands in a
product or quotient (00_scope R5 and section 6, G7). -/
def Obligations.ArithmeticIsCorrectlyRounded : Prop :=
  ∀ x y : F32, fIsFinite x = true → fIsFinite y = true →
    CorrectlyRounded (fVal x + fVal y) (fAdd x y) ∧ CorrectlyRounded (fVal x - fVal y) (fSub x y) ∧
    CorrectlyRounded (fVal x * fVal y) (fMul x y) ∧
    (fVal y ≠ 0 → CorrectlyRounded (fVal x / fVal y) (fDiv x y) ∧
      fNegative (fDiv x y) = (fNegative x != fNegative y)) ∧
    (fVal x + fVal y = 0 → fNegative (fAdd x y) = (fNegative x && fNegative y)) ∧
    (fVal x - fVal y = 0 → fNegative (fSub x y) = (fNegative x && !fNegative y)) ∧
    fNegative (fMul x y) = (fNegative x != fNegative y)

/-- The order of patterns is the order of their values (00_scope section 6). -/
def Obligations.ComparisonIsByValue : Prop :=
  ∀ x y : F32, fIsFinite x = true → fIsFinite y = true →
    (fLt x y = true ↔ fVal x < fVal y) ∧ (fLe x y = true ↔ fVal x ≤ fVal y)
end

