-- ==== Sys2Proof/Laws/Instance.lean ====
section
/-! SUPPORT. The block under NUM = F32 is the instance of the block over any numeric domain, and the operations of the domain
REAL. -/

namespace Sys2Proof.Machine

theorem exec_eq_execOver (i : Instr) (s : State) : exec i s = execOver f32Num i s := by
  cases i <;> rfl

theorem step_eq_stepOver (s : State) : step s = stepOver f32Num s := by
  have h : exec = execOver f32Num := funext fun i => funext fun s => exec_eq_execOver i s
  rw [step, stepOver, h]

/-- The power-on of the block at NUM = REAL answers the state `realCore` starts from. -/
theorem realCore_reset (par : Par ℝ) (cfg : Cfg ℝ) (legal : cfgValid realNum par.wDuty cfg = true) (lines : HallCode) :
    State.powerOn realNum par lines (envIdle realNum cfg) = .next (realCore par cfg legal lines).reset := dif_pos legal

/-! ### The domain REAL names these operations -/

@[simp] theorem realNum_num0 : realNum.num0 = 0 := rfl
@[simp] theorem realNum_num1 : realNum.num1 = 1 := rfl
@[simp] theorem realNum_num2 : realNum.num2 = 2 := rfl
@[simp] theorem realNum_num60 : realNum.num60 = 60 := rfl
@[simp] theorem realNum_twoPi : realNum.twoPi = 2 * Real.pi := rfl
@[simp] theorem realNum_sqrt3 : realNum.sqrt3 = √3 := rfl
@[simp] theorem realNum_ofNat (n : Nat) : realNum.ofNat n = n := rfl
@[simp] theorem realNum_ofBits (w : Word) : realNum.ofBits w = realOfBits w := rfl
@[simp] theorem realNum_bits32 (x : ℝ) : realNum.bits32 x = realBits32 x := rfl
@[simp] theorem realNum_add (x y : ℝ) : realNum.add x y = x + y := rfl
@[simp] theorem realNum_sub (x y : ℝ) : realNum.sub x y = x - y := rfl
@[simp] theorem realNum_mul (x y : ℝ) : realNum.mul x y = x * y := rfl
@[simp] theorem realNum_neg (x : ℝ) : realNum.neg x = -x := rfl
@[simp] theorem realNum_abs (x : ℝ) : realNum.abs x = |x| := rfl
@[simp] theorem realNum_lt (x y : ℝ) : realNum.lt x y = true ↔ x < y := by simp [realNum]
@[simp] theorem realNum_le (x y : ℝ) : realNum.le x y = true ↔ x ≤ y := by simp [realNum]
@[simp] theorem realNum_floor (x : ℝ) : realNum.floor x = ⌊x⌋ := rfl
@[simp] theorem realNum_clamp (v lo hi : ℝ) : realNum.clamp v lo hi = min (max v lo) hi := rfl

/-- Exact division by anything but 0. -/
theorem realNum_div (x y : ℝ) (h : y ≠ 0) : realNum.div x y = x / y := by simp [realNum, h]

end Sys2Proof.Machine
end

