-- ==== Sys2Proof/Laws/Num.lean ====
section
/-! SUPPORT. The order of binary32 patterns and the range of a duty, said once. -/

namespace Sys2Proof.Machine

theorem fIsNaN_of_fIsFinite {x : F32} (h : fIsFinite x = true) : fIsNaN x = false := by
  simp [fIsFinite] at h
  simp [fIsNaN, h]

theorem fLt_eq_false_of_fLe {x y : F32} (h : fLe x y = true) : fLt y x = false := by
  simp [fLe] at h
  simp [fLt, h]

theorem fLe_eq_false_of_fLt {x y : F32} (h : fLt x y = true) : fLe y x = false := by
  simp [fLt] at h
  simp [fLe, h]

/-- On numbers, `<` is the negation of `≤` the other way round. -/
theorem fLt_eq_not_fLe {x y : F32} (hx : fIsNaN x = false) (hy : fIsNaN y = false) : fLt y x = !fLe x y := by
  simp only [fLe, fLt, hx, hy]
  by_cases h : fOrder y < fOrder x <;> simp [h]
  omega

/-- Numbers are in order one way or the other. -/
theorem fLe_total {x y : F32} (hx : fIsNaN x = false) (hy : fIsNaN y = false) : fLe x y = true ∨ fLe y x = true := by
  simp only [fLe, hx, hy, Bool.not_false, Bool.true_and, decide_eq_true_eq]
  omega

/-- A duty lies in [0, max_duty], whatever the value it comes from. -/
theorem clampRound_le (v : F32) (max : Nat) : clampRound v max ≤ max := by
  unfold clampRound
  split
  · exact Nat.le_of_lt_succ (Nat.mod_lt _ (Nat.succ_pos max))
  · split
    · split <;> omega
    · omega

/-- The NaN's clamp lies between its bounds. -/
theorem clampedNaN_between {v lo hi : F32} (h : fLe lo hi = true) :
    fLe lo (clampedNaN v lo hi) = true ∧ fLe (clampedNaN v lo hi) hi = true := by
  have hlo : fLe lo lo = true := by
    simp only [fLe, Bool.and_eq_true, Bool.not_eq_true'] at h
    simp [fLe, h.1.1]
  unfold clampedNaN
  dsimp only
  split
  · rename_i hf
    simpa using hf
  · exact ⟨hlo, h⟩

/-! ### The domain F32 names these operations -/

@[simp] theorem f32Num_num0 : f32Num.num0 = 0x00000000#32 := rfl
@[simp] theorem f32Num_num1 : f32Num.num1 = 0x3F800000#32 := rfl
@[simp] theorem f32Num_num2 : f32Num.num2 = 0x40000000#32 := rfl
@[simp] theorem f32Num_num60 : f32Num.num60 = 0x42700000#32 := rfl
@[simp] theorem f32Num_twoPi : f32Num.twoPi = twoPi := rfl
@[simp] theorem f32Num_sqrt3 : f32Num.sqrt3 = sqrt3 := rfl
@[simp] theorem f32Num_torqueMin : f32Num.torqueMin = 0x3DCCCCCD#32 := rfl
@[simp] theorem f32Num_torqueMax : f32Num.torqueMax = 0x3F000000#32 := rfl
@[simp] theorem f32Num_ofNat (n : Nat) : f32Num.ofNat n = fOfNat n := rfl
@[simp] theorem f32Num_ofBits (w : Word) : f32Num.ofBits w = w := rfl
@[simp] theorem f32Num_bits32 (v : F32) : f32Num.bits32 v = v := rfl
@[simp] theorem f32Num_add (x y : F32) : f32Num.add x y = fAdd x y := rfl
@[simp] theorem f32Num_sub (x y : F32) : f32Num.sub x y = fSub x y := rfl
@[simp] theorem f32Num_mul (x y : F32) : f32Num.mul x y = fMul x y := rfl
@[simp] theorem f32Num_div (x y : F32) : f32Num.div x y = fDiv x y := rfl
@[simp] theorem f32Num_neg (x : F32) : f32Num.neg x = fNeg x := rfl
@[simp] theorem f32Num_abs (x : F32) : f32Num.abs x = fAbs x := rfl
@[simp] theorem f32Num_lt (x y : F32) : f32Num.lt x y = fLt x y := rfl
@[simp] theorem f32Num_le (x y : F32) : f32Num.le x y = fLe x y := rfl
@[simp] theorem f32Num_max (x y : F32) : f32Num.max x y = fMax x y := rfl
@[simp] theorem f32Num_clamp (v lo hi : F32) : f32Num.clamp v lo hi = fClamp v lo hi := rfl
@[simp] theorem f32Num_floor (x : F32) : f32Num.floor x = fFloor x := rfl
@[simp] theorem f32Num_clampRound (v : F32) (max : Nat) : f32Num.clampRound v max = clampRound v max := rfl
@[simp] theorem f32Num_isFinite (x : F32) : f32Num.isFinite x = fIsFinite x := rfl
@[simp] theorem f32Num_sin (x : F32) : f32Num.sin x = Config.sin x := rfl
@[simp] theorem f32Num_cos (x : F32) : f32Num.cos x = Config.cos x := rfl
@[simp] theorem f32Num_sqrt (x : F32) : f32Num.sqrt x = Config.sqrt x := rfl
@[simp] theorem f32Num_ofFinite (v : FiniteF32) : f32Num.ofFinite v = finitePattern v := rfl
@[simp] theorem f32Num_drawTick (n : Nat) : f32Num.drawTick n = Config.drawTick n := rfl

end Sys2Proof.Machine
end

