-- ==== Sys2Proof/Laws/State.lean ====
section
/-! SUPPORT. One lemma per field per update of State, and the same for a reset. -/

namespace Sys2Proof.Machine

variable {N F : Type}

@[simp] theorem State.withCap_par (s : State N F) (v : Cap) : (s.withCap v).par = s.par := rfl
@[simp] theorem State.withCap_cfg (s : State N F) (v : Cap) : (s.withCap v).cfg = s.cfg := rfl
@[simp] theorem State.withCap_cap (s : State N F) (v : Cap) : (s.withCap v).cap = v := rfl
@[simp] theorem State.withCap_est (s : State N F) (v : Cap) : (s.withCap v).est = s.est := rfl
@[simp] theorem State.withCap_pi (s : State N F) (v : Cap) : (s.withCap v).pi = s.pi := rfl
@[simp] theorem State.withCap_ol (s : State N F) (v : Cap) : (s.withCap v).ol = s.ol := rfl
@[simp] theorem State.withCap_ramp (s : State N F) (v : Cap) : (s.withCap v).ramp = s.ramp := rfl
@[simp] theorem State.withCap_co (s : State N F) (v : Cap) : (s.withCap v).co = s.co := rfl
@[simp] theorem State.withCap_pwm (s : State N F) (v : Cap) : (s.withCap v).pwm = s.pwm := rfl
@[simp] theorem State.withCap_hreg (s : State N F) (v : Cap) : (s.withCap v).hreg = s.hreg := rfl
@[simp] theorem State.withCap_opr (s : State N F) (v : Cap) : (s.withCap v).opr = s.opr := rfl
@[simp] theorem State.withCap_env (s : State N F) (v : Cap) : (s.withCap v).env = s.env := rfl

@[simp] theorem State.withEst_par (s : State N F) (v : Est N) : (s.withEst v).par = s.par := rfl
@[simp] theorem State.withEst_cfg (s : State N F) (v : Est N) : (s.withEst v).cfg = s.cfg := rfl
@[simp] theorem State.withEst_cap (s : State N F) (v : Est N) : (s.withEst v).cap = s.cap := rfl
@[simp] theorem State.withEst_est (s : State N F) (v : Est N) : (s.withEst v).est = v := rfl
@[simp] theorem State.withEst_pi (s : State N F) (v : Est N) : (s.withEst v).pi = s.pi := rfl
@[simp] theorem State.withEst_ol (s : State N F) (v : Est N) : (s.withEst v).ol = s.ol := rfl
@[simp] theorem State.withEst_ramp (s : State N F) (v : Est N) : (s.withEst v).ramp = s.ramp := rfl
@[simp] theorem State.withEst_co (s : State N F) (v : Est N) : (s.withEst v).co = s.co := rfl
@[simp] theorem State.withEst_pwm (s : State N F) (v : Est N) : (s.withEst v).pwm = s.pwm := rfl
@[simp] theorem State.withEst_hreg (s : State N F) (v : Est N) : (s.withEst v).hreg = s.hreg := rfl
@[simp] theorem State.withEst_opr (s : State N F) (v : Est N) : (s.withEst v).opr = s.opr := rfl
@[simp] theorem State.withEst_env (s : State N F) (v : Est N) : (s.withEst v).env = s.env := rfl

@[simp] theorem State.withPi_par (s : State N F) (v : Pi N) : (s.withPi v).par = s.par := rfl
@[simp] theorem State.withPi_cfg (s : State N F) (v : Pi N) : (s.withPi v).cfg = s.cfg := rfl
@[simp] theorem State.withPi_cap (s : State N F) (v : Pi N) : (s.withPi v).cap = s.cap := rfl
@[simp] theorem State.withPi_est (s : State N F) (v : Pi N) : (s.withPi v).est = s.est := rfl
@[simp] theorem State.withPi_pi (s : State N F) (v : Pi N) : (s.withPi v).pi = v := rfl
@[simp] theorem State.withPi_ol (s : State N F) (v : Pi N) : (s.withPi v).ol = s.ol := rfl
@[simp] theorem State.withPi_ramp (s : State N F) (v : Pi N) : (s.withPi v).ramp = s.ramp := rfl
@[simp] theorem State.withPi_co (s : State N F) (v : Pi N) : (s.withPi v).co = s.co := rfl
@[simp] theorem State.withPi_pwm (s : State N F) (v : Pi N) : (s.withPi v).pwm = s.pwm := rfl
@[simp] theorem State.withPi_hreg (s : State N F) (v : Pi N) : (s.withPi v).hreg = s.hreg := rfl
@[simp] theorem State.withPi_opr (s : State N F) (v : Pi N) : (s.withPi v).opr = s.opr := rfl
@[simp] theorem State.withPi_env (s : State N F) (v : Pi N) : (s.withPi v).env = s.env := rfl

@[simp] theorem State.withOl_par (s : State N F) (v : Ol N) : (s.withOl v).par = s.par := rfl
@[simp] theorem State.withOl_cfg (s : State N F) (v : Ol N) : (s.withOl v).cfg = s.cfg := rfl
@[simp] theorem State.withOl_cap (s : State N F) (v : Ol N) : (s.withOl v).cap = s.cap := rfl
@[simp] theorem State.withOl_est (s : State N F) (v : Ol N) : (s.withOl v).est = s.est := rfl
@[simp] theorem State.withOl_pi (s : State N F) (v : Ol N) : (s.withOl v).pi = s.pi := rfl
@[simp] theorem State.withOl_ol (s : State N F) (v : Ol N) : (s.withOl v).ol = v := rfl
@[simp] theorem State.withOl_ramp (s : State N F) (v : Ol N) : (s.withOl v).ramp = s.ramp := rfl
@[simp] theorem State.withOl_co (s : State N F) (v : Ol N) : (s.withOl v).co = s.co := rfl
@[simp] theorem State.withOl_pwm (s : State N F) (v : Ol N) : (s.withOl v).pwm = s.pwm := rfl
@[simp] theorem State.withOl_hreg (s : State N F) (v : Ol N) : (s.withOl v).hreg = s.hreg := rfl
@[simp] theorem State.withOl_opr (s : State N F) (v : Ol N) : (s.withOl v).opr = s.opr := rfl
@[simp] theorem State.withOl_env (s : State N F) (v : Ol N) : (s.withOl v).env = s.env := rfl

@[simp] theorem State.withRamp_par (s : State N F) (v : N) : (s.withRamp v).par = s.par := rfl
@[simp] theorem State.withRamp_cfg (s : State N F) (v : N) : (s.withRamp v).cfg = s.cfg := rfl
@[simp] theorem State.withRamp_cap (s : State N F) (v : N) : (s.withRamp v).cap = s.cap := rfl
@[simp] theorem State.withRamp_est (s : State N F) (v : N) : (s.withRamp v).est = s.est := rfl
@[simp] theorem State.withRamp_pi (s : State N F) (v : N) : (s.withRamp v).pi = s.pi := rfl
@[simp] theorem State.withRamp_ol (s : State N F) (v : N) : (s.withRamp v).ol = s.ol := rfl
@[simp] theorem State.withRamp_ramp (s : State N F) (v : N) : (s.withRamp v).ramp = ⟨v⟩ := rfl
@[simp] theorem State.withRamp_co (s : State N F) (v : N) : (s.withRamp v).co = s.co := rfl
@[simp] theorem State.withRamp_pwm (s : State N F) (v : N) : (s.withRamp v).pwm = s.pwm := rfl
@[simp] theorem State.withRamp_hreg (s : State N F) (v : N) : (s.withRamp v).hreg = s.hreg := rfl
@[simp] theorem State.withRamp_opr (s : State N F) (v : N) : (s.withRamp v).opr = s.opr := rfl
@[simp] theorem State.withRamp_env (s : State N F) (v : N) : (s.withRamp v).env = s.env := rfl

@[simp] theorem State.withCo_par (s : State N F) (v : Co N) : (s.withCo v).par = s.par := rfl
@[simp] theorem State.withCo_cfg (s : State N F) (v : Co N) : (s.withCo v).cfg = s.cfg := rfl
@[simp] theorem State.withCo_cap (s : State N F) (v : Co N) : (s.withCo v).cap = s.cap := rfl
@[simp] theorem State.withCo_est (s : State N F) (v : Co N) : (s.withCo v).est = s.est := rfl
@[simp] theorem State.withCo_pi (s : State N F) (v : Co N) : (s.withCo v).pi = s.pi := rfl
@[simp] theorem State.withCo_ol (s : State N F) (v : Co N) : (s.withCo v).ol = s.ol := rfl
@[simp] theorem State.withCo_ramp (s : State N F) (v : Co N) : (s.withCo v).ramp = s.ramp := rfl
@[simp] theorem State.withCo_co (s : State N F) (v : Co N) : (s.withCo v).co = v := rfl
@[simp] theorem State.withCo_pwm (s : State N F) (v : Co N) : (s.withCo v).pwm = s.pwm := rfl
@[simp] theorem State.withCo_hreg (s : State N F) (v : Co N) : (s.withCo v).hreg = s.hreg := rfl
@[simp] theorem State.withCo_opr (s : State N F) (v : Co N) : (s.withCo v).opr = s.opr := rfl
@[simp] theorem State.withCo_env (s : State N F) (v : Co N) : (s.withCo v).env = s.env := rfl

@[simp] theorem State.withPwm_par (s : State N F) (v : Pwm) : (s.withPwm v).par = s.par := rfl
@[simp] theorem State.withPwm_cfg (s : State N F) (v : Pwm) : (s.withPwm v).cfg = s.cfg := rfl
@[simp] theorem State.withPwm_cap (s : State N F) (v : Pwm) : (s.withPwm v).cap = s.cap := rfl
@[simp] theorem State.withPwm_est (s : State N F) (v : Pwm) : (s.withPwm v).est = s.est := rfl
@[simp] theorem State.withPwm_pi (s : State N F) (v : Pwm) : (s.withPwm v).pi = s.pi := rfl
@[simp] theorem State.withPwm_ol (s : State N F) (v : Pwm) : (s.withPwm v).ol = s.ol := rfl
@[simp] theorem State.withPwm_ramp (s : State N F) (v : Pwm) : (s.withPwm v).ramp = s.ramp := rfl
@[simp] theorem State.withPwm_co (s : State N F) (v : Pwm) : (s.withPwm v).co = s.co := rfl
@[simp] theorem State.withPwm_pwm (s : State N F) (v : Pwm) : (s.withPwm v).pwm = v := rfl
@[simp] theorem State.withPwm_hreg (s : State N F) (v : Pwm) : (s.withPwm v).hreg = s.hreg := rfl
@[simp] theorem State.withPwm_opr (s : State N F) (v : Pwm) : (s.withPwm v).opr = s.opr := rfl
@[simp] theorem State.withPwm_env (s : State N F) (v : Pwm) : (s.withPwm v).env = s.env := rfl

@[simp] theorem State.withHreg_par (s : State N F) (v : Hreg N) : (s.withHreg v).par = s.par := rfl
@[simp] theorem State.withHreg_cfg (s : State N F) (v : Hreg N) : (s.withHreg v).cfg = s.cfg := rfl
@[simp] theorem State.withHreg_cap (s : State N F) (v : Hreg N) : (s.withHreg v).cap = s.cap := rfl
@[simp] theorem State.withHreg_est (s : State N F) (v : Hreg N) : (s.withHreg v).est = s.est := rfl
@[simp] theorem State.withHreg_pi (s : State N F) (v : Hreg N) : (s.withHreg v).pi = s.pi := rfl
@[simp] theorem State.withHreg_ol (s : State N F) (v : Hreg N) : (s.withHreg v).ol = s.ol := rfl
@[simp] theorem State.withHreg_ramp (s : State N F) (v : Hreg N) : (s.withHreg v).ramp = s.ramp := rfl
@[simp] theorem State.withHreg_co (s : State N F) (v : Hreg N) : (s.withHreg v).co = s.co := rfl
@[simp] theorem State.withHreg_pwm (s : State N F) (v : Hreg N) : (s.withHreg v).pwm = s.pwm := rfl
@[simp] theorem State.withHreg_hreg (s : State N F) (v : Hreg N) : (s.withHreg v).hreg = v := rfl
@[simp] theorem State.withHreg_opr (s : State N F) (v : Hreg N) : (s.withHreg v).opr = s.opr := rfl
@[simp] theorem State.withHreg_env (s : State N F) (v : Hreg N) : (s.withHreg v).env = s.env := rfl

@[simp] theorem State.withOpr_par (s : State N F) (v : Opr) : (s.withOpr v).par = s.par := rfl
@[simp] theorem State.withOpr_cfg (s : State N F) (v : Opr) : (s.withOpr v).cfg = s.cfg := rfl
@[simp] theorem State.withOpr_cap (s : State N F) (v : Opr) : (s.withOpr v).cap = s.cap := rfl
@[simp] theorem State.withOpr_est (s : State N F) (v : Opr) : (s.withOpr v).est = s.est := rfl
@[simp] theorem State.withOpr_pi (s : State N F) (v : Opr) : (s.withOpr v).pi = s.pi := rfl
@[simp] theorem State.withOpr_ol (s : State N F) (v : Opr) : (s.withOpr v).ol = s.ol := rfl
@[simp] theorem State.withOpr_ramp (s : State N F) (v : Opr) : (s.withOpr v).ramp = s.ramp := rfl
@[simp] theorem State.withOpr_co (s : State N F) (v : Opr) : (s.withOpr v).co = s.co := rfl
@[simp] theorem State.withOpr_pwm (s : State N F) (v : Opr) : (s.withOpr v).pwm = s.pwm := rfl
@[simp] theorem State.withOpr_hreg (s : State N F) (v : Opr) : (s.withOpr v).hreg = s.hreg := rfl
@[simp] theorem State.withOpr_opr (s : State N F) (v : Opr) : (s.withOpr v).opr = v := rfl
@[simp] theorem State.withOpr_env (s : State N F) (v : Opr) : (s.withOpr v).env = s.env := rfl

@[simp] theorem State.withEnv_par (s : State N F) (v : Env N F) : (s.withEnv v).par = s.par := rfl
@[simp] theorem State.withEnv_cfg (s : State N F) (v : Env N F) : (s.withEnv v).cfg = s.cfg := rfl
@[simp] theorem State.withEnv_cap (s : State N F) (v : Env N F) : (s.withEnv v).cap = s.cap := rfl
@[simp] theorem State.withEnv_est (s : State N F) (v : Env N F) : (s.withEnv v).est = s.est := rfl
@[simp] theorem State.withEnv_pi (s : State N F) (v : Env N F) : (s.withEnv v).pi = s.pi := rfl
@[simp] theorem State.withEnv_ol (s : State N F) (v : Env N F) : (s.withEnv v).ol = s.ol := rfl
@[simp] theorem State.withEnv_ramp (s : State N F) (v : Env N F) : (s.withEnv v).ramp = s.ramp := rfl
@[simp] theorem State.withEnv_co (s : State N F) (v : Env N F) : (s.withEnv v).co = s.co := rfl
@[simp] theorem State.withEnv_pwm (s : State N F) (v : Env N F) : (s.withEnv v).pwm = s.pwm := rfl
@[simp] theorem State.withEnv_hreg (s : State N F) (v : Env N F) : (s.withEnv v).hreg = s.hreg := rfl
@[simp] theorem State.withEnv_opr (s : State N F) (v : Env N F) : (s.withEnv v).opr = s.opr := rfl
@[simp] theorem State.withEnv_env (s : State N F) (v : Env N F) : (s.withEnv v).env = v := rfl

@[simp] theorem State.resetWith_par (d : NumDomain N F) (p : Par N) (c : Cfg N)
    (h : cfgValid d p.wDuty c = true) (l : HallCode) (e : Env N F) :
    (State.resetWith d p c h l e).par = p := rfl
@[simp] theorem State.resetWith_cfg (d : NumDomain N F) (p : Par N) (c : Cfg N)
    (h : cfgValid d p.wDuty c = true) (l : HallCode) (e : Env N F) :
    (State.resetWith d p c h l e).cfg = c := rfl
@[simp] theorem State.resetWith_cap (d : NumDomain N F) (p : Par N) (c : Cfg N)
    (h : cfgValid d p.wDuty c = true) (l : HallCode) (e : Env N F) :
    (State.resetWith d p c h l e).cap = capReset l := rfl
@[simp] theorem State.resetWith_est (d : NumDomain N F) (p : Par N) (c : Cfg N)
    (h : cfgValid d p.wDuty c = true) (l : HallCode) (e : Env N F) :
    (State.resetWith d p c h l e).est = estPowerOn d c := rfl
@[simp] theorem State.resetWith_pi (d : NumDomain N F) (p : Par N) (c : Cfg N)
    (h : cfgValid d p.wDuty c = true) (l : HallCode) (e : Env N F) :
    (State.resetWith d p c h l e).pi = piPowerOn d c := rfl
@[simp] theorem State.resetWith_ol (d : NumDomain N F) (p : Par N) (c : Cfg N)
    (h : cfgValid d p.wDuty c = true) (l : HallCode) (e : Env N F) :
    (State.resetWith d p c h l e).ol = olPowerOn d c := rfl
@[simp] theorem State.resetWith_ramp (d : NumDomain N F) (p : Par N) (c : Cfg N)
    (h : cfgValid d p.wDuty c = true) (l : HallCode) (e : Env N F) :
    (State.resetWith d p c h l e).ramp = ⟨d.num0⟩ := rfl
@[simp] theorem State.resetWith_co (d : NumDomain N F) (p : Par N) (c : Cfg N)
    (h : cfgValid d p.wDuty c = true) (l : HallCode) (e : Env N F) :
    (State.resetWith d p c h l e).co = coPowerOn d c := rfl
@[simp] theorem State.resetWith_pwm (d : NumDomain N F) (p : Par N) (c : Cfg N)
    (h : cfgValid d p.wDuty c = true) (l : HallCode) (e : Env N F) :
    (State.resetWith d p c h l e).pwm = pwmOffPort := rfl
@[simp] theorem State.resetWith_hreg (d : NumDomain N F) (p : Par N) (c : Cfg N)
    (h : cfgValid d p.wDuty c = true) (l : HallCode) (e : Env N F) :
    (State.resetWith d p c h l e).hreg = hregPowerOn d c := rfl
@[simp] theorem State.resetWith_opr (d : NumDomain N F) (p : Par N) (c : Cfg N)
    (h : cfgValid d p.wDuty c = true) (l : HallCode) (e : Env N F) :
    (State.resetWith d p c h l e).opr = oprPowerOn := rfl
@[simp] theorem State.resetWith_env (d : NumDomain N F) (p : Par N) (c : Cfg N)
    (h : cfgValid d p.wDuty c = true) (l : HallCode) (e : Env N F) :
    (State.resetWith d p c h l e).env = e := rfl

/-- Two states with the same records are the same state. -/
theorem State.ext_records {s t : State N F} (hpar : s.par = t.par) (hcfg : s.cfg = t.cfg) (hcap : s.cap = t.cap)
    (hest : s.est = t.est) (hpi : s.pi = t.pi) (hol : s.ol = t.ol) (hramp : s.ramp = t.ramp) (hco : s.co = t.co)
    (hpwm : s.pwm = t.pwm) (hhreg : s.hreg = t.hreg) (hopr : s.opr = t.opr) (henv : s.env = t.env) : s = t := by
  cases s
  cases t
  simp_all

end Sys2Proof.Machine
end

