-- ==== Sys2Proof/Laws/Ops.lean ====
section
/-! SUPPORT. What each shared operation leaves, said once: raising a fault, the gates of the unit operations, the result
registers, the capture, and that an operation of the command port answers a next state. -/

namespace Sys2Proof.Machine

variable {N F : Type}

/-! ### Raising a fault -/

@[simp] theorem raiseFault_par (c : Cause) (s : State N F) : (raiseFault c s).par = s.par := rfl
@[simp] theorem raiseFault_cfg (c : Cause) (s : State N F) : (raiseFault c s).cfg = s.cfg := rfl
@[simp] theorem raiseFault_cap (c : Cause) (s : State N F) : (raiseFault c s).cap = s.cap := rfl
@[simp] theorem raiseFault_est (c : Cause) (s : State N F) : (raiseFault c s).est = s.est := rfl
@[simp] theorem raiseFault_pi (c : Cause) (s : State N F) : (raiseFault c s).pi = s.pi := rfl
@[simp] theorem raiseFault_ol (c : Cause) (s : State N F) : (raiseFault c s).ol = s.ol := rfl
@[simp] theorem raiseFault_ramp (c : Cause) (s : State N F) : (raiseFault c s).ramp = s.ramp := rfl
@[simp] theorem raiseFault_co (c : Cause) (s : State N F) : (raiseFault c s).co = coRaise c s.co := rfl
@[simp] theorem raiseFault_pwm (c : Cause) (s : State N F) : (raiseFault c s).pwm = s.pwm := rfl
@[simp] theorem raiseFault_hreg (c : Cause) (s : State N F) : (raiseFault c s).hreg = s.hreg := rfl
@[simp] theorem raiseFault_opr (c : Cause) (s : State N F) : (raiseFault c s).opr = s.opr := rfl
@[simp] theorem raiseFault_env (c : Cause) (s : State N F) : (raiseFault c s).env = s.env := rfl

@[simp] theorem coRaise_mode (c : Cause) (co : Co N) : (coRaise c co).mode = co.mode := rfl
@[simp] theorem coRaise_calReq (c : Cause) (co : Co N) : (coRaise c co).calReq = co.calReq := rfl
@[simp] theorem coRaise_vq (c : Cause) (co : Co N) : (coRaise c co).vq = co.vq := rfl
@[simp] theorem coRaise_hallValid (c : Cause) (co : Co N) : (coRaise c co).hallValid = co.hallValid := rfl
@[simp] theorem coRaise_lastFault (c : Cause) (co : Co N) : (coRaise c co).lastFault = causeCode c := rfl
@[simp] theorem coRaise_calDone (c : Cause) (co : Co N) : (coRaise c co).calDone = co.calDone := rfl
@[simp] theorem coRaise_calSuccess (c : Cause) (co : Co N) : (coRaise c co).calSuccess = co.calSuccess := rfl
@[simp] theorem coRaise_calDirInv (c : Cause) (co : Co N) : (coRaise c co).calDirInv = co.calDirInv := rfl
@[simp] theorem coRaise_calOffset (c : Cause) (co : Co N) : (coRaise c co).calOffset = co.calOffset := rfl
@[simp] theorem coRaise_calTorqueReq (c : Cause) (co : Co N) : (coRaise c co).calTorqueReq = co.calTorqueReq := rfl

/-- A conditional raise changes CO alone. -/
theorem raiseIf_eq (b : Bool) (c : Cause) (s : State N F) :
    raiseIf b c s = s.withCo (if b then coRaise c s.co else s.co) := by
  cases b <;> rfl

/-! ### The gates of the unit operations -/

theorem unitOp_enabled (body : State N F → State N F) (s : State N F) (h : s.par.testPortEn = true) :
    unitOp body s = .next (body s) := by simp [unitOp, h]

theorem unitOp_disabled (body : State N F → State N F) (s : State N F) (h : s.par.testPortEn = false) :
    unitOp body s = .next (raiseFault .illegalOp s) := by simp [unitOp, h]

/-- All a unit operation can do: run its body, or raise ILLEGAL_OP. -/
theorem unitOp_cases {body : State N F → State N F} {s t : State N F} (h : unitOp body s = .next t) :
    (s.par.testPortEn = true ∧ t = body s) ∨ (s.par.testPortEn = false ∧ t = raiseFault .illegalOp s) := by
  cases hp : s.par.testPortEn
  · rw [unitOp_disabled body s hp] at h
    cases h
    exact .inr ⟨rfl, rfl⟩
  · rw [unitOp_enabled body s hp] at h
    cases h
    exact .inl ⟨rfl, rfl⟩

theorem checked_ok (body : State N F → State N F) (s : State N F) : checked true body s = body s := rfl

theorem checked_bad (body : State N F → State N F) (s : State N F) : checked false body s = raiseFault .badValue s := rfl

/-- All a checked body can do: run, or raise BAD_VALUE. -/
theorem checked_cases (ok : Bool) (body : State N F → State N F) (s : State N F) :
    (ok = true ∧ checked ok body s = body s) ∨ (ok = false ∧ checked ok body s = raiseFault .badValue s) := by
  cases ok
  · exact .inr ⟨rfl, rfl⟩
  · exact .inl ⟨rfl, rfl⟩

/-! ### Result registers -/

theorem setRes0_eq (v : Word) (s : State N F) : setRes0 v s = s.withOpr { s.opr with res0 := v } := rfl

theorem setRes01_eq (v0 v1 : Word) (s : State N F) :
    setRes01 v0 v1 s = s.withOpr { s.opr with res0 := v0, res1 := v1 } := rfl

theorem setRes012_eq (v0 v1 v2 : Word) (s : State N F) :
    setRes012 v0 v1 v2 s = s.withOpr { s.opr with res0 := v0, res1 := v1, res2 := v2 } := rfl

/-! ### Capture -/

/-- On a qualifying edge every field of the capture but the time base is written. -/
theorem capHallIn_edge {lines : HallCode} {c : Cap} (h : isEdge c.hallLines lines = true) :
    capHallIn lines c = ⟨lines, lines, c.cnt, c.tb, false, 0, 0, c.tb⟩ := by
  simp [capHallIn, h]

/-- Without an edge only the line levels follow. -/
theorem capHallIn_noEdge {lines : HallCode} {c : Cap} (h : isEdge c.hallLines lines = false) :
    capHallIn lines c = { c with hallLines := lines } := by
  simp [capHallIn, h]

/-- A snapshot with no capture operation in its gaps is the live capture, and CAP is unchanged. -/
theorem takeSnapshot_untorn (par : Par N) (inp : TickInput N F) (c : Cap) (h1 : inp.gap1 = []) (h2 : inp.gap2 = [])
    (h3 : inp.gap3 = []) (h4 : inp.gap4 = []) : takeSnapshot par inp c = (liveSnapshot c, c) := by
  simp [takeSnapshot, h1, h2, h3, h4, captureAll, liveSnapshot]

theorem captureAll_append (par : Par N) (xs ys : List CaptureOp) (c : Cap) :
    captureAll par (xs ++ ys) c = captureAll par ys (captureAll par xs c) := by
  induction xs generalizing c with
  | nil => rfl
  | cons x xs ih => exact ih (captureStep par x c)

/-- A property every capture operation keeps holds after the gaps of a snapshot. -/
theorem captureAll_induct {P : Cap → Prop} (par : Par N) (hstep : ∀ op c, P c → P (captureStep par op c)) :
    ∀ (ops : List CaptureOp) (c : Cap), P c → P (captureAll par ops c)
  | [], _, h => h
  | op :: ops, c, h => captureAll_induct par hstep ops _ (hstep op c h)

/-- CAP after a snapshot is CAP after the capture operations of its four gaps, in order. -/
theorem takeSnapshot_cap (par : Par N) (inp : TickInput N F) (c : Cap) :
    (takeSnapshot par inp c).2 = captureAll par (inp.gap1 ++ inp.gap2 ++ inp.gap3 ++ inp.gap4) c := by
  simp [takeSnapshot, captureAll_append]

/-! ### Setting the mode -/

/-- The mode is set, and the PI is reset where it changes: nothing else. -/
theorem setMode_eq (d : NumDomain N F) (m : Mode) (s : State N F) :
    setMode d m s = (s.withPi (if s.co.mode = m then s.pi else piReset d s.pi)).withCo { s.co with mode := m } := by
  unfold setMode
  split <;> rfl

/-! ### The reset sequence -/

/-- All that a reset sequence can do: put every field at its reset value for the presented record, which is in its ranges; or
refuse it. -/
theorem resetSequence_cases (d : NumDomain N F) (par : Par N) (lines : HallCode) (env : Env N F) :
    (∃ legal : cfgValid d par.wDuty env.cfgIn = true,
      resetSequence d par lines env = .next (State.resetWith d par env.cfgIn legal lines (popCfg env))) ∨
    (cfgValid d par.wDuty env.cfgIn = false ∧ resetSequence d par lines env = .refused .cfgOutOfRange) := by
  unfold resetSequence
  split
  · exact .inl ⟨‹_›, rfl⟩
  · exact .inr ⟨Bool.eq_false_iff.mpr ‹_›, rfl⟩

theorem resetSequence_legal {d : NumDomain N F} {par : Par N} (lines : HallCode) {env : Env N F}
    (legal : cfgValid d par.wDuty env.cfgIn = true) :
    resetSequence d par lines env = .next (State.resetWith d par env.cfgIn legal lines (popCfg env)) := dif_pos legal

theorem resetSequence_illegal {d : NumDomain N F} {par : Par N} (lines : HallCode) {env : Env N F}
    (h : cfgValid d par.wDuty env.cfgIn = false) : resetSequence d par lines env = .refused .cfgOutOfRange :=
  dif_neg (Bool.eq_false_iff.mp h)

theorem resetSequence_next {d : NumDomain N F} {par : Par N} {lines : HallCode} {env : Env N F} {t : State N F}
    (h : resetSequence d par lines env = .next t) :
    ∃ legal : cfgValid d par.wDuty env.cfgIn = true, t = State.resetWith d par env.cfgIn legal lines (popCfg env) := by
  obtain ⟨hv, he⟩ | ⟨_, he⟩ := resetSequence_cases d par lines env
  · rw [he] at h; exact ⟨hv, (Host.Outcome.next.inj h).symm⟩
  · rw [he] at h; cases h

end Sys2Proof.Machine
end

