-- ==== Sys2Proof/Laws/PerInstr.lean ====
section
/-! SUPPORT. Statements about each operation as syntax, one lemma per constructor. -/

namespace Sys2Proof.Laws

/-- The shape of an operation's encoding: a command word whose low byte is its opcode, one word long but for `REG_WRITE`, which
has its data word second (30_encoding R90). -/
def EncodeShape.Statement (i : Instr) : Prop :=
  ∃ w, encode i = w :: dataWords i ∧ wordOpcode w = opcodeOf i

/-- The low byte of a word is what was appended below. -/
theorem wordOpcode_append (x : BitVec 24) (y : BitVec 8) : wordOpcode (x ++ y) = y := by
  ext i hi
  simp only [wordOpcode, BitVec.getElem_extractLsb', BitVec.getLsbD_append]
  simp [hi]

/-- The bits above the low byte are what was appended above. -/
theorem highBits_append (x : BitVec 24) (y : BitVec 8) : (x ++ y).extractLsb' 8 24 = x := by
  ext i hi
  simp only [BitVec.getElem_extractLsb', BitVec.getLsbD_append]
  simp [hi]

theorem encodeShape_of (i : Instr) : EncodeShape.Statement i :=
  ⟨operandBits i ++ opcodeOf i, rfl, wordOpcode_append _ _⟩

theorem EncodeShape.nop : EncodeShape.Statement .nop := encodeShape_of _
theorem EncodeShape.hallIn (l : HallCode) : EncodeShape.Statement (.hallIn l) := encodeShape_of _
theorem EncodeShape.ovfTick : EncodeShape.Statement .ovfTick := encodeShape_of _
theorem EncodeShape.clkAdv (n : BitVec 24) : EncodeShape.Statement (.clkAdv n) := encodeShape_of _
theorem EncodeShape.estUpdate : EncodeShape.Statement .estUpdate := encodeShape_of _
theorem EncodeShape.estReset : EncodeShape.Statement .estReset := encodeShape_of _
theorem EncodeShape.estSeedFilter : EncodeShape.Statement .estSeedFilter := encodeShape_of _
theorem EncodeShape.estSetOffset : EncodeShape.Statement .estSetOffset := encodeShape_of _
theorem EncodeShape.invPark : EncodeShape.Statement .invPark := encodeShape_of _
theorem EncodeShape.invClarke : EncodeShape.Statement .invClarke := encodeShape_of _
theorem EncodeShape.limitV : EncodeShape.Statement .limitV := encodeShape_of _
theorem EncodeShape.svpwm : EncodeShape.Statement .svpwm := encodeShape_of _
theorem EncodeShape.piUpdate : EncodeShape.Statement .piUpdate := encodeShape_of _
theorem EncodeShape.piReset : EncodeShape.Statement .piReset := encodeShape_of _
theorem EncodeShape.piSetGains : EncodeShape.Statement .piSetGains := encodeShape_of _
theorem EncodeShape.piSetLimits : EncodeShape.Statement .piSetLimits := encodeShape_of _
theorem EncodeShape.piSetSym : EncodeShape.Statement .piSetSym := encodeShape_of _
theorem EncodeShape.olInit : EncodeShape.Statement .olInit := encodeShape_of _
theorem EncodeShape.olReset : EncodeShape.Statement .olReset := encodeShape_of _
theorem EncodeShape.olUpdate : EncodeShape.Statement .olUpdate := encodeShape_of _
theorem EncodeShape.olReached : EncodeShape.Statement .olReached := encodeShape_of _
theorem EncodeShape.olRpm : EncodeShape.Statement .olRpm := encodeShape_of _
theorem EncodeShape.rampUpdate : EncodeShape.Statement .rampUpdate := encodeShape_of _
theorem EncodeShape.rampSeed : EncodeShape.Statement .rampSeed := encodeShape_of _
theorem EncodeShape.ctrlTick : EncodeShape.Statement .ctrlTick := encodeShape_of _
theorem EncodeShape.regRead (idx : BitVec 8) : EncodeShape.Statement (.regRead idx) := encodeShape_of _
theorem EncodeShape.regWrite (idx : BitVec 8) (d : Word) : EncodeShape.Statement (.regWrite idx d) := encodeShape_of _
theorem EncodeShape.reset : EncodeShape.Statement .reset := encodeShape_of _

end Sys2Proof.Laws
end

