-- ==== Sys2Proof/Laws/Tick.lean ====
section
/-! SUPPORT. What each part of a control tick leaves unchanged, said once as the relation `TickFrame`, and the mode and the pending
request after each branch. -/

namespace Sys2Proof.Machine

variable {N F : Type}

/-- What no part of a tick after its latch changes: the parameters, CFG, CAP, HREG, OPR, the port, the PI's gains and limits and
the latched torque; and a sticky fault bit that is set stays set. -/
structure TickFrame (s t : State N F) : Prop where
  par : t.par = s.par
  cfg : t.cfg = s.cfg
  cap : t.cap = s.cap
  hreg : t.hreg = s.hreg
  opr : t.opr = s.opr
  stream : t.env.stream = s.env.stream
  cfgIn : t.env.cfgIn = s.env.cfgIn
  cfgs : t.env.cfgs = s.env.cfgs
  kp : t.pi.kp = s.pi.kp
  ki : t.pi.ki = s.pi.ki
  outMin : t.pi.outMin = s.pi.outMin
  outMax : t.pi.outMax = s.pi.outMax
  torque : t.co.calTorqueReq = s.co.calTorqueReq
  fault : ∀ c, s.co.fault.getLsbD c = true → t.co.fault.getLsbD c = true

theorem TickFrame.refl (s : State N F) : TickFrame s s :=
  ⟨rfl, rfl, rfl, rfl, rfl, rfl, rfl, rfl, rfl, rfl, rfl, rfl, rfl, fun _ h => h⟩

theorem TickFrame.trans {s t u : State N F} (a : TickFrame s t) (b : TickFrame t u) : TickFrame s u :=
  ⟨b.par.trans a.par, b.cfg.trans a.cfg, b.cap.trans a.cap, b.hreg.trans a.hreg, b.opr.trans a.opr,
    b.stream.trans a.stream, b.cfgIn.trans a.cfgIn, b.cfgs.trans a.cfgs, b.kp.trans a.kp, b.ki.trans a.ki, b.outMin.trans a.outMin,
    b.outMax.trans a.outMax, b.torque.trans a.torque, fun c h => b.fault c (a.fault c h)⟩

theorem raiseFault_tickFrame (c : Cause) (s : State N F) : TickFrame s (raiseFault c s) :=
  ⟨rfl, rfl, rfl, rfl, rfl, rfl, rfl, rfl, rfl, rfl, rfl, rfl, rfl, by intro c h; simp [coRaise, BitVec.getLsbD_or, h]⟩

theorem raiseIf_tickFrame (b : Bool) (c : Cause) (s : State N F) : TickFrame s (raiseIf b c s) := by
  unfold raiseIf
  split
  · exact raiseFault_tickFrame c s
  · exact .refl s

/-! ### One record changed at a time -/

theorem withEst_tickFrame (s : State N F) (v : Est N) : TickFrame s (s.withEst v) :=
  ⟨rfl, rfl, rfl, rfl, rfl, rfl, rfl, rfl, rfl, rfl, rfl, rfl, rfl, fun _ h => h⟩

theorem withOl_tickFrame (s : State N F) (v : Ol N) : TickFrame s (s.withOl v) :=
  ⟨rfl, rfl, rfl, rfl, rfl, rfl, rfl, rfl, rfl, rfl, rfl, rfl, rfl, fun _ h => h⟩

theorem withRamp_tickFrame (s : State N F) (v : N) : TickFrame s (s.withRamp v) :=
  ⟨rfl, rfl, rfl, rfl, rfl, rfl, rfl, rfl, rfl, rfl, rfl, rfl, rfl, fun _ h => h⟩

theorem withPwm_tickFrame (s : State N F) (v : Pwm) : TickFrame s (s.withPwm v) :=
  ⟨rfl, rfl, rfl, rfl, rfl, rfl, rfl, rfl, rfl, rfl, rfl, rfl, rfl, fun _ h => h⟩

theorem withEnv_tickFrame (s : State N F) (v : Env N F) (h1 : v.stream = s.env.stream := by rfl)
    (h2 : v.cfgIn = s.env.cfgIn := by rfl) (h3 : v.cfgs = s.env.cfgs := by rfl) :
    TickFrame s (s.withEnv v) :=
  ⟨rfl, rfl, rfl, rfl, rfl, h1, h2, h3, rfl, rfl, rfl, rfl, rfl, fun _ h => h⟩

theorem withPi_tickFrame (s : State N F) (v : Pi N) (h1 : v.kp = s.pi.kp := by rfl) (h2 : v.ki = s.pi.ki := by rfl)
    (h3 : v.outMin = s.pi.outMin := by rfl) (h4 : v.outMax = s.pi.outMax := by rfl) : TickFrame s (s.withPi v) :=
  ⟨rfl, rfl, rfl, rfl, rfl, rfl, rfl, rfl, h1, h2, h3, h4, rfl, fun _ h => h⟩

theorem withCo_tickFrame (s : State N F) (v : Co N) (h1 : v.calTorqueReq = s.co.calTorqueReq := by rfl)
    (h2 : v.fault = s.co.fault := by rfl) :
    TickFrame s (s.withCo v) :=
  ⟨rfl, rfl, rfl, rfl, rfl, rfl, rfl, rfl, rfl, rfl, rfl, rfl, h1, fun _ h => by rw [State.withCo_co, h2]; exact h⟩

/-! ### The parts of a tick -/

theorem setMode_tickFrame (d : NumDomain N F) (m : Mode) (s : State N F) : TickFrame s (setMode d m s) := by
  rw [setMode_eq]
  refine .trans (withPi_tickFrame s _ ?_ ?_ ?_ ?_) (withCo_tickFrame _ _) <;> split <;> rfl

@[simp] theorem setMode_mode (d : NumDomain N F) (m : Mode) (s : State N F) : (setMode d m s).co.mode = m := by rw [setMode_eq]; rfl
@[simp] theorem setMode_calReq (d : NumDomain N F) (m : Mode) (s : State N F) : (setMode d m s).co.calReq = s.co.calReq := by
  rw [setMode_eq]; rfl
@[simp] theorem setMode_hallValid (d : NumDomain N F) (m : Mode) (s : State N F) :
    (setMode d m s).co.hallValid = s.co.hallValid := by
  rw [setMode_eq]; rfl

theorem zeroCommand_tickFrame (d : NumDomain N F) (s : State N F) : TickFrame s (zeroCommand d s) :=
  .trans (withRamp_tickFrame s d.num0) (withCo_tickFrame _ _)

theorem enterOpenLoop_tickFrame (d : NumDomain N F) (effEn : Bool) (s : State N F) : TickFrame s (enterOpenLoop d effEn s) := by
  refine (setMode_tickFrame d .openLoop s).trans ?_
  unfold enterOpenLoop
  generalize setMode d .openLoop s = s
  have h : TickFrame s (zeroCommand d (((s.withPi (piReset d s.pi)).withEst (estReset d s.est)).withOl (olRestart d s.cfg s.ol))) :=
    (withPi_tickFrame _ _).trans ((withEst_tickFrame _ _).trans ((withOl_tickFrame _ _).trans (zeroCommand_tickFrame d _)))
  cases effEn
  · exact h.trans (withPwm_tickFrame _ _)
  · exact h

theorem enterOpenLoop_mode (d : NumDomain N F) (effEn : Bool) (s : State N F) : (enterOpenLoop d effEn s).co.mode = .openLoop := by
  cases effEn <;> simp [enterOpenLoop, zeroCommand, pwmOff]

theorem enterOpenLoop_calReq (d : NumDomain N F) (effEn : Bool) (s : State N F) :
    (enterOpenLoop d effEn s).co.calReq = s.co.calReq := by
  cases effEn <;> simp [enterOpenLoop, zeroCommand, pwmOff]

/-- `Drive` writes the PWM port and nothing else. -/
theorem drive_eq (d : NumDomain N F) (vdc vd vq theta : N) (s : State N F) :
    drive d vdc vd vq theta s = s.withPwm (drive d vdc vd vq theta s).pwm := rfl

theorem drive_tickFrame (d : NumDomain N F) (vdc vd vq theta : N) (s : State N F) : TickFrame s (drive d vdc vd vq theta s) := by
  rw [drive_eq]; exact withPwm_tickFrame s _

@[simp] theorem drive_co (d : NumDomain N F) (vdc vd vq theta : N) (s : State N F) : (drive d vdc vd vq theta s).co = s.co := rfl

theorem safetyStop_tickFrame (d : NumDomain N F) (snap : Snapshot) (s : State N F) : TickFrame s (safetyStop d snap s) :=
  (withPwm_tickFrame s { s.pwm with dutyU := 0, dutyV := 0, dutyW := 0 }).trans
    ((withPi_tickFrame _ (piClearIntegral d s.pi)).trans ((zeroCommand_tickFrame d _).trans
      ((raiseIf_tickFrame snap.timedOut .captureTimeout _).trans (raiseIf_tickFrame (!rawCodeOk snap.raw) .hallInvalid _))))

theorem safetyStop_mode (d : NumDomain N F) (snap : Snapshot) (s : State N F) : (safetyStop d snap s).co.mode = s.co.mode := by
  simp only [safetyStop, raiseIf_eq, zeroCommand]
  cases snap.timedOut <;> cases rawCodeOk snap.raw <;> rfl

theorem safetyStop_calReq (d : NumDomain N F) (snap : Snapshot) (s : State N F) :
    (safetyStop d snap s).co.calReq = s.co.calReq := by
  simp only [safetyStop, raiseIf_eq, zeroCommand]
  cases snap.timedOut <;> cases rawCodeOk snap.raw <;> rfl

/-- The two cases of the closed loop's PI step: the near-zero rule, or `PiUpdate`. -/
theorem focCommand_cases (d : NumDomain N F) (par : Par N) (cfg : Cfg N) (ramp meas : N) (p : Pi N) :
    focCommand d par cfg ramp meas p = (piReset d p, d.num0) ∨
      focCommand d par cfg ramp meas p = (piUpdate d ramp meas par.tCtrl p, (piUpdate d ramp meas par.tCtrl p).lastOutput) := by
  unfold focCommand
  split
  · exact .inl rfl
  · exact .inr rfl

theorem focBranch_tickFrame (d : NumDomain N F) (h : Hreg N) (vdc : N) (snap : Snapshot) (s : State N F) :
    TickFrame s (focBranch d h vdc snap s) := by
  unfold focBranch
  split
  · refine .trans (.trans (withRamp_tickFrame s _) (.trans (withPi_tickFrame _ _ ?_ ?_ ?_ ?_) (withCo_tickFrame _ _)))
      (drive_tickFrame _ _ _ _ _ _)
    all_goals
      rcases focCommand_cases d (s.withRamp (rampUpdate d s.cfg h.targetRpm s.par.tCtrl s.ramp.rpm)).par
        (s.withRamp (rampUpdate d s.cfg h.targetRpm s.par.tCtrl s.ramp.rpm)).cfg
        (s.withRamp (rampUpdate d s.cfg h.targetRpm s.par.tCtrl s.ramp.rpm)).ramp.rpm
        (s.withRamp (rampUpdate d s.cfg h.targetRpm s.par.tCtrl s.ramp.rpm)).est.speed
        (s.withRamp (rampUpdate d s.cfg h.targetRpm s.par.tCtrl s.ramp.rpm)).pi with e | e <;> rw [e] <;> rfl
  · exact safetyStop_tickFrame d snap s

theorem focBranch_mode (d : NumDomain N F) (h : Hreg N) (vdc : N) (snap : Snapshot) (s : State N F) :
    (focBranch d h vdc snap s).co.mode = s.co.mode := by
  unfold focBranch
  split
  · simp
  · exact safetyStop_mode d snap s

theorem focBranch_calReq (d : NumDomain N F) (h : Hreg N) (vdc : N) (snap : Snapshot) (s : State N F) :
    (focBranch d h vdc snap s).co.calReq = s.co.calReq := by
  unfold focBranch
  split
  · simp
  · exact safetyStop_calReq d snap s

theorem handoff_tickFrame (d : NumDomain N F) (s : State N F) : TickFrame s (handoff d s) :=
  (withEst_tickFrame s _).trans ((withRamp_tickFrame _ _).trans (setMode_tickFrame d .closedLoopFoc _))

theorem openLoopBranch_tickFrame (d : NumDomain N F) (h : Hreg N) (vdc : N) (snap : Snapshot) (s : State N F) :
    TickFrame s (openLoopBranch d h vdc snap s) := by
  unfold openLoopBranch
  split
  · exact (handoff_tickFrame d s).trans (focBranch_tickFrame d h vdc snap (handoff d s))
  · exact (withOl_tickFrame s _).trans ((withPwm_tickFrame _ _).trans (withCo_tickFrame _ _))

theorem openLoopBranch_mode (d : NumDomain N F) (h : Hreg N) (vdc : N) (snap : Snapshot) (s : State N F) :
    (openLoopBranch d h vdc snap s).co.mode =
      if s.co.hallValid && olReached d s.ol then .closedLoopFoc else s.co.mode := by
  unfold openLoopBranch
  split
  · rw [focBranch_mode]; simp [handoff]
  · rfl

theorem openLoopBranch_calReq (d : NumDomain N F) (h : Hreg N) (vdc : N) (snap : Snapshot) (s : State N F) :
    (openLoopBranch d h vdc snap s).co.calReq = s.co.calReq := by
  unfold openLoopBranch
  split
  · rw [focBranch_calReq]; simp [handoff]
  · rfl

theorem calSuccess_tickFrame (d : NumDomain N F) (vdc offset : N) (dirInv : Bool) (s : State N F) :
    TickFrame s (calSuccess d vdc offset dirInv s) := by
  refine .trans (.trans (withCo_tickFrame s _) (.trans (withEst_tickFrame _ _) (.trans (setMode_tickFrame d .closedLoopFoc _)
    (zeroCommand_tickFrame d _)))) (drive_tickFrame _ _ _ _ _ _)

theorem calFailure_tickFrame (d : NumDomain N F) (vdc : N) (s : State N F) : TickFrame s (calFailure d vdc s) := by
  refine .trans (.trans (withCo_tickFrame s _) (.trans (raiseFault_tickFrame .calFailed _)
    (enterOpenLoop_tickFrame d true _))) (drive_tickFrame _ _ _ _ _ _)

theorem calRunning_tickFrame (d : NumDomain N F) (vdc : N) (a : CalAnswer N F) (s : State N F) :
    TickFrame s (calRunning d vdc a s) :=
  (withCo_tickFrame s _).trans (drive_tickFrame _ _ _ _ _ _)

theorem calBranch_tickFrame (d : NumDomain N F) (vdc : N) (snap : Snapshot) (a : CalAnswer N F) (s : State N F) :
    TickFrame s (calBranch d vdc snap a s) := by
  have h : TickFrame s (s.withEnv { s.env with calStepIn := some (calStepArg snap s) }) := withEnv_tickFrame s _
  unfold calBranch
  cases a.status
  · exact h.trans (calRunning_tickFrame _ _ _ _)
  · exact h.trans (calSuccess_tickFrame _ _ _ _ _)
  · exact h.trans (calFailure_tickFrame _ _ _)

/-- The mode after the Calibration branch, by the Calibrator's status. -/
theorem calBranch_mode (d : NumDomain N F) (vdc : N) (snap : Snapshot) (a : CalAnswer N F) (s : State N F) :
    (calBranch d vdc snap a s).co.mode =
      match a.status with
      | .running => s.co.mode
      | .succeeded => .closedLoopFoc
      | .failed => .openLoop := by
  unfold calBranch
  cases a.status
  · rfl
  · simp [calSuccess, zeroCommand]
  · simp only [calFailure, drive_co, enterOpenLoop_mode]

theorem calBranch_calReq (d : NumDomain N F) (vdc : N) (snap : Snapshot) (a : CalAnswer N F) (s : State N F) :
    (calBranch d vdc snap a s).co.calReq = s.co.calReq := by
  unfold calBranch
  cases a.status
  · rfl
  · simp [calSuccess, zeroCommand]
  · simp only [calFailure, drive_co, enterOpenLoop_calReq]; rfl

theorem calRequest_tickFrame (d : NumDomain N F) (s : State N F) : TickFrame s (calRequest d s) :=
  (withCo_tickFrame s _).trans ((withEnv_tickFrame _ _).trans ((setMode_tickFrame d .calibration _).trans
    (zeroCommand_tickFrame d _)))

theorem enabledTick_tickFrame (d : NumDomain N F) (inp : TickInput N F) (snap : Snapshot) (s : State N F) :
    TickFrame s (enabledTick d inp snap s) := by
  have h : TickFrame s (if s.co.calReq then calRequest d s else s) := by
    split
    · exact calRequest_tickFrame d s
    · exact .refl s
  unfold enabledTick
  dsimp only
  generalize (if s.co.calReq then calRequest d s else s) = u at *
  have h2 := h.trans (withEst_tickFrame u (estUpdate d u.par u.cfg snap u.est))
  generalize u.withEst (estUpdate d u.par u.cfg snap u.est) = v at *
  cases v.co.mode
  · exact h2.trans (openLoopBranch_tickFrame _ _ _ _ _)
  · exact h2.trans (focBranch_tickFrame _ _ _ _ _)
  · exact h2.trans (calBranch_tickFrame _ _ _ _ _)

theorem disabledTick_tickFrame (d : NumDomain N F) (h : Hreg N) (voltOk : Bool) (s : State N F) :
    TickFrame s (disabledTick d h voltOk s) :=
  (raiseIf_tickFrame (h.en && !voltOk) .voltInhibit s).trans ((withCo_tickFrame _ _).trans
    ((enterOpenLoop_tickFrame d false _).trans (withPwm_tickFrame _ _)))

/-! ### The latch and the snapshot -/

@[simp] theorem tickHead_cap (snap : Snapshot) (cap : Cap) (s : State N F) : (tickHead snap cap s).cap = cap := rfl
@[simp] theorem tickHead_est (snap : Snapshot) (cap : Cap) (s : State N F) : (tickHead snap cap s).est = s.est := rfl
@[simp] theorem tickHead_ol (snap : Snapshot) (cap : Cap) (s : State N F) : (tickHead snap cap s).ol = s.ol := rfl
@[simp] theorem tickHead_ramp (snap : Snapshot) (cap : Cap) (s : State N F) : (tickHead snap cap s).ramp = s.ramp := rfl
@[simp] theorem tickHead_hreg (snap : Snapshot) (cap : Cap) (s : State N F) : (tickHead snap cap s).hreg = s.hreg := rfl
@[simp] theorem tickHead_opr (snap : Snapshot) (cap : Cap) (s : State N F) : (tickHead snap cap s).opr = s.opr := rfl
@[simp] theorem tickHead_env (snap : Snapshot) (cap : Cap) (s : State N F) : (tickHead snap cap s).env = s.env := rfl
@[simp] theorem tickHead_pi (snap : Snapshot) (cap : Cap) (s : State N F) :
    (tickHead snap cap s).pi = piSetGains s.hreg.kp s.hreg.ki s.pi := rfl
@[simp] theorem tickHead_co (snap : Snapshot) (cap : Cap) (s : State N F) :
    (tickHead snap cap s).co = { s.co with hallValid := hallValid snap.raw snap.timedOut } := rfl

/-- A tick after its latch and snapshot keeps what `TickFrame` names. -/
theorem ctrlTick_tickFrame (d : NumDomain N F) (inp : TickInput N F) (s : State N F) :
    TickFrame (tickHead (takeSnapshot s.par inp s.cap).1 (takeSnapshot s.par inp s.cap).2 s) (ctrlTick d inp s) := by
  unfold ctrlTick
  dsimp only
  split
  · exact enabledTick_tickFrame _ _ _ _
  · exact disabledTick_tickFrame d _ _ _

end Sys2Proof.Machine
end

