-- ==== Sys2Proof/Tests/Slice0.lean ====
section
/-! SUPPORT. The model's own tests. Expected values are those of spec/95_test_vectors (the vector's name stands beside each test) or
of the example of the rule named there; and, for each statement with hypotheses, a witness that meets them. -/

namespace Sys2Proof.Tests

set_option Elab.async false

open Sys2Proof.Machine Sys2Proof.Safety

/-! ### Helpers -/

/-- A view of the next state of an answer. -/
def after {α : Type} (r : Result) (f : State → α) : Option α :=
  match r with
  | .next t => some (f t)
  | .fault _ => none
  | .refused _ => none

/-- The reset state with the operand registers loaded. -/
def loaded (a0 a1 a2 a3 : Word) : State := State.reset.withOpr ⟨a0, a1, a2, a3, 0#32, 0#32, 0#32⟩

/-- The reset state of a block whose test port is disabled. -/
def portOff : State := { State.reset with par := { defaultPar with testPortEn := false } }

/-- CAP with the given lines, capture and counters. -/
def capWith (lines raw : HallCode) (period : Nat) (timedOut : Bool) (stall cnt tb : Nat) : Cap :=
  ⟨lines, raw, period, tb, timedOut, stall, cnt, tb⟩

/-- The input of one tick: no operation in its gaps, v_dc = 12. -/
def input (voltOk : Bool) (status : CalStatus) : TickInput :=
  ⟨voltOk, 0x41400000#32, [], [], [], [], ⟨status, 0x00000000#32, 0x3F99999A#32, 0x00000000#32, ⟨false, 126, 0#23⟩, true⟩⟩

/-- An enabled block before a tick, in a mode, with a recorded code, a request and a Calibrator answer. -/
def before (mode : Mode) (raw : HallCode) (timedOut calReq voltOk : Bool) (status : CalStatus) : State :=
  { State.reset with
    cap := capWith raw raw 850000 timedOut 0 0 0
    co := { State.reset.co with mode := mode, calReq := calReq }
    hreg := { State.reset.hreg with en := true }
    env := { State.reset.env with ticks := [input voltOk status] } }

/-- The same with the open-loop target reached. -/
def reached (raw : HallCode) : State :=
  let s := before .openLoop raw false false true .running
  s.withOl { s.ol with period := s.ol.minPeriod }

/-- The domain F32 with configuration functions exact at the angle 0, and no vector above the limit. -/
def zeroAngle : NumDomain F32 FiniteF32 :=
  { f32Num with sin := fun _ => 0x00000000#32, cos := fun _ => 0x3F800000#32, sqrt := fun _ => 0x00000000#32 }

/-- The tick of `s` with these functions. -/
def tick (s : State) : State := ctrlTick zeroAngle (tickInput f32Num s.env) (s.withEnv (popTick s.env))

/-! ### Well-formedness -/

/-- The check on unit operations refuses one where the test port is disabled, and passes it where it is enabled (R95). -/
theorem test_wellFormed_refuses : Instr.wellFormed false .estUpdate = false ∧ Instr.wellFormed false .rampSeed = false ∧
    Instr.wellFormed true .estUpdate = true ∧ Instr.wellFormed false .ctrlTick = true := by decide

/-! ### Decoding: every opcode of 30_encoding R93, written out -/

theorem test_decode_port :
    decode [0x00000000#32] = .instr .nop [] ∧ decode [0x00000501#32] = .instr (.hallIn 5#3) [] ∧
    decode [0x00000002#32] = .instr .ovfTick [] ∧ decode [0x0CF85003#32] = .instr (.clkAdv 850000#24) [] := by decide

theorem test_decode_estimator :
    decode [0x00000010#32] = .instr .estUpdate [] ∧ decode [0x00000011#32] = .instr .estReset [] ∧
    decode [0x00000012#32] = .instr .estSeedFilter [] ∧ decode [0x00000013#32] = .instr .estSetOffset [] := by decide

theorem test_decode_transform_svpwm :
    decode [0x00000020#32] = .instr .invPark [] ∧ decode [0x00000021#32] = .instr .invClarke [] ∧
    decode [0x00000022#32] = .instr .limitV [] ∧ decode [0x00000030#32] = .instr .svpwm [] := by decide

theorem test_decode_pi :
    decode [0x00000040#32] = .instr .piUpdate [] ∧ decode [0x00000041#32] = .instr .piReset [] ∧
    decode [0x00000042#32] = .instr .piSetGains [] ∧ decode [0x00000043#32] = .instr .piSetLimits [] ∧
    decode [0x00000044#32] = .instr .piSetSym [] := by decide

theorem test_decode_openLoop_ramp :
    decode [0x00000050#32] = .instr .olInit [] ∧ decode [0x00000051#32] = .instr .olReset [] ∧
    decode [0x00000052#32] = .instr .olUpdate [] ∧ decode [0x00000053#32] = .instr .olReached [] ∧
    decode [0x00000054#32] = .instr .olRpm [] ∧ decode [0x00000060#32] = .instr .rampUpdate [] ∧
    decode [0x00000061#32] = .instr .rampSeed [] := by decide

theorem test_decode_coordinator :
    decode [0x00000070#32] = .instr .ctrlTick [] ∧ decode [0x00001071#32] = .instr (.regRead 0x10#8) [] ∧
    decode [0x00000172#32, 0x43C80000#32] = .instr (.regWrite 0x01#8 0x43C80000#32) [] ∧
    decode [0x0000007F#32] = .instr .reset [] := by decide

/-- Section 2.1: illegal words, and the word after an illegal 0x72 that is not consumed. -/
theorem test_decode_illegal :
    decode [0x00000100#32] = .illegal .reservedBits [] ∧ decode [0x00000004#32] = .illegal .unknownOpcode [] ∧
    decode [0x000000FF#32] = .illegal .unknownOpcode [] ∧ decode [0x00000801#32] = .illegal .reservedBits [] ∧
    decode [0x00010071#32] = .illegal .reservedBits [] ∧
    decode [0x00010072#32, 0x00000070#32] = .illegal .reservedBits [0x00000070#32] := by decide

/-- Section 2.1: the pseudo-operations' words (R99), and the numbering of the opcode table's bits. -/
theorem test_encode :
    encodePseudo .enable = [0x00000072#32, 0x00000001#32] ∧ encodePseudo .calibrate = [0x00000072#32, 0x00000003#32] ∧
    encodePseudo .clearFaults = [0x00001872#32, 0x0000FFFF#32] ∧
    encodePseudo (.load 2 0x3DCCCCCD#32) = [0x00000A72#32, 0x3DCCCCCD#32] ∧
    decodeTableWord 64 0x43C8000000000172 = some (.regWrite 0x01#8 0x43C80000#32) := by decide

/-! ### HallCapture -/

/-- H1 and H3: an edge records; a two-line change does not. -/
theorem test_hallIn :
    after (exec (.hallIn 1#3) (State.reset.withCap (capWith 5#3 0#3 0 true 9 850000 1700000))) (·.cap)
      = some ⟨1#3, 1#3, 850000, 1700000, false, 0, 0, 1700000⟩ ∧
    after (exec (.hallIn 2#3) (State.reset.withCap (capWith 1#3 1#3 0 false 0 500 7))) (·.cap)
      = some (capWith 2#3 1#3 0 false 0 500 7) := by decide +kernel

/-- H6 to H8: the limit is exceeded at 2601, and the count saturates. -/
theorem test_ovfTick :
    let run := fun n t => after (exec .ovfTick (State.reset.withCap (capWith 1#3 1#3 850000 t n 0 0)))
      fun u => (u.cap.stallCount, u.cap.timedOut, u.cap.periodCycles)
    run 2599 false = some (2600, false, 850000) ∧ run 2600 false = some (2601, true, 0) ∧
      run 65535 true = some (65535, true, 0) := by decide +kernel

/-- H12: the counters wrap separately, each at its own width. -/
theorem test_clkAdv :
    after (exec (.clkAdv 0x20#24) (State.reset.withCap ⟨0#3, 0#3, 0, 0, false, 0, 0xFFFFFFF0, 5⟩))
      (fun u => (u.cap.cnt, u.cap.tb)) = some (0x10, 0x25) ∧
    capClkAdv { defaultPar with wCnt := 8, wTs := 40 } 0x20#24 ⟨0#3, 0#3, 0, 0, false, 0, 0xF0, 0xFFFFFFF0⟩
      = ⟨0#3, 0#3, 0, 0, false, 0, 0x10, 0x100000010⟩ := by decide +kernel

/-! ### HallPositionEstimator -/

/-- E4: a backward wrap. -/
theorem test_estUpdate_backward :
    after (exec .estUpdate { State.reset with
        est := { State.reset.est with prevIndex := some 0 }
        cap := capWith 5#3 5#3 850000 false 0 0 0 })
      (fun u => (u.est.dir, u.est.base, u.opr.res0, u.opr.res1, u.opr.res2))
      = some (.backward, 6, 0x40B84E89#32, 0x40A78D37#32, 0xC3FA0000#32) := by decide +kernel

/-- E9: interpolation, across a wrap of the time base. -/
theorem test_estUpdate_interpolates :
    after (exec .estUpdate { State.reset with
        cfg := { defaultCfg with interpEn := true }
        est := { State.reset.est with prevIndex := some 0, speed := 0x43FA0000#32 }
        cap := ⟨3#3, 3#3, 850000, 4294967290, false, 0, 0, 169994⟩ })
      (fun u => (u.opr.res0, u.opr.res1)) = some (0x3F1A25C2#32, 0x3F9A25C2#32) := by decide +kernel

/-- E11. -/
theorem test_estReset :
    after (exec .estReset { State.reset with
        est := { State.reset.est with offset := 0x3F800000#32, base := 6, speed := 0x443B8000#32 } })
      (fun u => (u.est.base, u.est.speed, u.est.elec, u.est.offset))
      = some (0, 0x00000000#32, 0x40A90FDB#32, 0x3F800000#32) := by decide +kernel

/-- E12 and E13. -/
theorem test_estSeedFilter :
    after (exec .estSeedFilter (loaded 0x43C80000#32 0 0 0)) (·.est.speed) = some 0x43C80000#32 ∧
    after (exec .estSeedFilter (loaded 0x7FC00000#32 0 0 0)) (fun u => (u.est.speed, u.co.fault, u.co.lastFault))
      = some (0x00000000#32, 0x0040#16, 6#4) := by decide +kernel

/-- E15. -/
theorem test_estSetOffset :
    after (exec .estSetOffset (loaded 0xBF800000#32 0xFFFFFFFE#32 0 0)) (fun u => (u.est.offset, u.est.elec, u.est.dirInv))
      = some (0x40A90FDB#32, 0x3F800000#32, false) := by decide +kernel

/-! ### CoordinateTransform and SVPWM -/

/-- S2, with functions exact at the angle 0. -/
theorem test_invPark : invPark zeroAngle 0x3F800000#32 0x00000000#32 0x00000000#32 = (0x3F800000#32, 0x00000000#32) := by
  decide +kernel

/-- T4. -/
theorem test_invClarke :
    after (exec .invClarke (loaded 0 0x3F800000#32 0 0)) (fun u => (u.opr.res0, u.opr.res1, u.opr.res2))
      = some (0x00000000#32, 0x3F5DB3D7#32, 0xBF5DB3D7#32) := by decide +kernel

/-- T5 and T6: the magnitude of (3, 4) is 5; equal to the limit it passes. -/
theorem test_limitV :
    let five : NumDomain F32 FiniteF32 := { f32Num with sqrt := fun _ => 0x40A00000#32 }
    limitVoltage five 0x40400000#32 0x40800000#32 0x40200000#32 = (0x3FC00000#32, 0x40000000#32) ∧
    limitVoltage five 0x40400000#32 0x40800000#32 0x40A00000#32 = (0x40400000#32, 0x40800000#32) := by decide +kernel

/-- V4 and V10: ties away from zero, and sector 1 at the linear limit. -/
theorem test_svpwm :
    let run := fun va vb => after (exec .svpwm (loaded va vb 0x41400000#32 100#32))
      fun u => (u.opr.res0, u.opr.res1, u.opr.res2)
    run 0x40C00000#32 0x00000000#32 = some (88#32, 13#32, 13#32) ∧
    run 0x40C00000#32 0x405DB3D7#32 = some (100#32, 50#32, 0#32) := by decide +kernel

/-- V17, V18: the safe default at −0.0 and below. V22: a maximal duty too large. -/
theorem test_svpwm_default :
    let run := fun vdc max => after (exec .svpwm (loaded 0x40400000#32 0 vdc max)) fun u => (u.opr.res0, u.co.lastFault)
    run 0x80000000#32 100#32 = some (50#32, 0#4) ∧ run 0xBF800000#32 101#32 = some (51#32, 0#4) ∧
    run 0x41400000#32 65536#32 = some (0#32, 6#4) := by decide +kernel

/-! ### SpeedController -/

/-- P-c and P-d: frozen after a saturated call, accumulating after one inside. -/
theorem test_piUpdate :
    let run := fun last => after (exec .piUpdate ((loaded 0x00000000#32 0x40A00000#32 0x3DCCCCCD#32 0).withPi
        ⟨0x3F800000#32, 0x3F800000#32, 0x40000000#32, last, 0xC1200000#32, 0x41200000#32⟩))
      fun u => (u.pi.integral, u.opr.res0)
    run 0x41200000#32 = some (0x40000000#32, 0xC0400000#32) ∧
    run 0xC0400000#32 = some (0x3FC00000#32, 0xC0600000#32) := by decide +kernel

/-- P-f, and the gains of P1. -/
theorem test_piReset_gains :
    after (exec .piReset (State.reset.withPi ⟨1, 2, 3, 4, 5, 6⟩)) (·.pi) = some ⟨1, 2, 0, 0, 5, 6⟩ ∧
    after (exec .piSetGains (loaded 0x3F800000#32 0x3F000000#32 0 0)) (fun u => (u.pi.kp, u.pi.ki))
      = some (0x3F800000#32, 0x3F000000#32) := by decide +kernel

/-- P-g, P-i and P1's symmetric limits. -/
theorem test_piLimits :
    after (exec .piSetLimits (loaded 0x40A00000#32 0x40A00000#32 0 0)) (fun u => (u.pi.outMax, u.co.lastFault))
      = some (0x40C00000#32, 6#4) ∧
    after (exec .piSetLimits (loaded 0xC2C80000#32 0x42C80000#32 0 0)) (fun u => (u.pi.outMin, u.pi.outMax))
      = some (0xC2C80000#32, 0x42C80000#32) ∧
    after (exec .piSetSym (loaded 0x41200000#32 0 0 0)) (fun u => (u.pi.outMin, u.pi.outMax))
      = some (0xC1200000#32, 0x41200000#32) := by decide +kernel

/-! ### OpenLoopStarter and ramp limiter -/

/-- Section 2.7's OL_INIT, and O4. -/
theorem test_olInit :
    after (exec .olInit (loaded 0x42C80000#32 0x43C80000#32 0x447A0000#32 0x3E4CCCCD#32))
      (fun u => (u.ol.period, u.ol.minPeriod, u.ol.k, u.ol.step)) = some (0x3D4CCCCD#32, 0x3C4CCCCD#32, 0x3F2AAAAB#32, 0) ∧
    after (exec .olInit (loaded 0x00000000#32 0x43C80000#32 0x447A0000#32 0x3E4CCCCD#32)) (·.co.lastFault)
      = some 6#4 := by decide +kernel

/-- u2, and O8. -/
theorem test_olUpdate_olReset :
    after (exec .olUpdate ((loaded 0x3CF5C28F#32 0 0 0).withOl { State.reset.ol with elapsed := 0x3CF5C28F#32 }))
      (fun u => (u.ol.step, u.ol.period, u.opr.res0, u.opr.res1, u.opr.res2))
      = some (1, 0x3D088889#32, 1#32, 0x00000014#32, 0x00050000#32) ∧
    after (exec .olReset (State.reset.withOl { State.reset.ol with step := 4, period := 0x3C4CCCCD#32 })) (·.ol)
      = some State.reset.ol := by decide +kernel

/-- O1 and O3. -/
theorem test_olReadouts :
    after (exec .olRpm State.reset) (·.opr.res0) = some 0x42C7FFFF#32 ∧
    after (exec .olReached State.reset) (·.opr.res0) = some 0#32 ∧
    after (exec .olReached (reached 1#3)) (·.opr.res0) = some 1#32 := by decide +kernel

/-- A1, A6 and A7. -/
theorem test_ramp :
    after (exec .rampUpdate (loaded 0x42C80000#32 0x39D1B717#32 0 0)) (fun u => (u.ramp.rpm, u.opr.res0))
      = some (0x3ECCCCCC#32, 0x3ECCCCCC#32) ∧
    after (exec .rampUpdate (loaded 0x42C80000#32 0xBF800000#32 0 0)) (fun u => (u.ramp.rpm, u.co.lastFault))
      = some (0x00000000#32, 6#4) ∧
    after (exec .rampSeed (loaded 0x43C80000#32 0 0 0)) (·.ramp.rpm) = some 0x43C80000#32 := by decide +kernel

/-! ### CTRL_TICK -/

/-- K4 and K7: the inhibited tick, and an OpenLoop tick without a valid code. -/
theorem test_ctrlTick_openLoop :
    (let t := tick (before .closedLoopFoc 3#3 false true false .running)
     (t.co.fault, t.co.lastFault, t.co.mode, t.co.calReq, t.pwm)) = (0x0080#16, 7#4, .openLoop, false, pwmOffPort) ∧
    (let t := tick (before .openLoop 0#3 false false true .running)
     (t.co.fault, t.co.mode, t.pwm)) = (0#16, .openLoop, ⟨true, 0b011#3, 20, 0, 0⟩) := by decide +kernel

/-- K5: the safety stop of a snapshot both invalid and timed out. -/
theorem test_ctrlTick_safetyStop :
    (let t := tick (before .closedLoopFoc 7#3 true false true .running)
     (t.co.fault, statusWord f32Num t)) = (0x0006#16, 0x00010781#32) := by decide +kernel

/-! ### Host access -/

/-- K1, K12 and K11. -/
theorem test_regRead_reserved :
    after (exec (.regRead 0x10#8) State.reset) (·.env.readValue) = some 0x00000000#32 ∧
    after (exec (.regRead 0x05#8) State.reset) (fun u => (u.env.readValue, u.co.fault)) = some (0#32, 0x0020#16) ∧
    after (exec (.regWrite 0x10#8 0#32) State.reset) (·.co.lastFault) = some 5#4 := by decide +kernel

/-- K8, K10, K13 and K14. -/
theorem test_regWrite :
    after (exec (.regWrite 0x04#8 0x3F666666#32) State.reset) (·.hreg.calTorque) = some 0x3F000000#32 ∧
    after (exec (.regWrite 0x01#8 0x7FC00000#32) State.reset) (fun u => (u.hreg.targetRpm, u.co.lastFault))
      = some (0x00000000#32, 6#4) ∧
    after (exec (.regWrite 0x18#8 4#32) (State.reset.withCo { State.reset.co with fault := 0x86#16, lastFault := 7#4 }))
      (fun u => (u.co.fault, u.co.lastFault)) = some (0x82#16, 7#4) ∧
    after (exec (.regWrite 0x00#8 5#32) State.reset) (·.hreg.en) = some false := by decide +kernel

/-- K17: RESET keeps the line levels; it samples the record presented, and the next one stands at the input (R310, R311). R255:
NOP. -/
theorem test_reset_nop :
    let next := { defaultCfg with polePairs := 7 }
    let env := envIdle f32Num defaultCfg
    after (exec .reset ((before .calibration 3#3 true true true .running).withEnv { env with cfgs := [next] })) id
      = some (State.resetWith f32Num defaultPar defaultCfg defaultCfg_valid 3#3 { env with cfgIn := next }) ∧
    after (exec .nop (before .calibration 3#3 true true true .running)) id
      = some (before .calibration 3#3 true true true .running) := by decide +kernel

/-- R311: power-on refuses a record out of range; at the defaults it gives the model's reset state. -/
theorem test_powerOn :
    State.powerOn f32Num defaultPar 0#3 (envIdle f32Num defaultCfg) = .next State.reset ∧
    State.powerOn f32Num defaultPar 0#3 (envIdle f32Num { defaultCfg with maxDuty := 65536 }) = .refused .cfgOutOfRange := by
  exact ⟨resetSequence_legal (env := envIdle f32Num defaultCfg) _ defaultCfg_valid, resetSequence_illegal _ (by decide +kernel)⟩

/-- A word is fetched and run as the first operation after reset (30_encoding section 2.1: an illegal word raises ILLEGAL_OP). -/
theorem test_step :
    after (step (State.reset.withFetchWord 64 0x43C8000000000172)) (fun t => (t.hreg.targetRpm, t.env.stream))
      = some (0x43C80000#32, []) ∧
    after (step (State.reset.withStream [0x00010072#32, 0x00000070#32])) (fun t => (t.co.lastFault, t.env.stream))
      = some (4#4, [0x00000070#32]) := by decide +kernel

/-! ### Witnesses: a concrete state and operands that meet the hypotheses of each statement, clause by clause -/

theorem witness_DecodedWordsAreTheEncoding :
    decode [0x00000572#32, 0x12345678#32, 0x00000070#32] = .instr (.regWrite 0x05#8 0x12345678#32) [0x00000070#32] := by decide

theorem witness_StepRunsDecodedOperation :
    decode (State.reset.withStream [0x00000070#32]).env.stream = .instr .ctrlTick [] ∧
    decode State.reset.env.stream = .waiting ∧ decode (State.reset.withStream [0x00000172#32]).env.stream = .waiting := by
  decide +kernel

/-- An unknown opcode, and the lowest and highest reserved bit of each format. -/
theorem witness_IllegalWordRaisesIllegalOp :
    let op := fun w : Word => w.extractLsb' 0 8
    (op 0x00000004#32 = 0x04#8 ∧ op 0x000000FF#32 = 0xFF#8) ∧
    (op 0x00000100#32 = 0x00#8 ∧ (0x00000100#32).extractLsb' 8 24 ≠ 0#24 ∧ op 0x8000007F#32 = 0x7F#8 ∧
      (0x8000007F#32).extractLsb' 8 24 ≠ 0#24) ∧
    (op 0x00000801#32 = 0x01#8 ∧ (0x00000801#32).extractLsb' 11 21 ≠ 0#21) ∧
    (op 0x00010071#32 = 0x71#8 ∧ (0x00010071#32).extractLsb' 16 16 ≠ 0#16 ∧ op 0x80000072#32 = 0x72#8 ∧
      (0x80000072#32).extractLsb' 16 16 ≠ 0#16) := by decide

theorem witness_UnitOperationsNeedTestPort :
    Instr.testPortOnly .estUpdate = true ∧ Instr.testPortOnly .rampSeed = true ∧ portOff.par.testPortEn = false := by
  decide +kernel

theorem witness_OperationsKeepParametersAndPort :
    (∃ t, exec .ctrlTick State.reset = .next t) ∧ (∃ t, exec .reset State.reset = .next t) ∧ Instr.ctrlTick ≠ .reset :=
  ⟨⟨_, rfl⟩, ⟨_, resetSequence_legal (env := State.reset.env) _ defaultCfg_valid⟩, by decide⟩

theorem witness_HallInRecordsQualifyingEdges :
    let par := fun v : HallCode => (v.getLsbD 0 ^^ v.getLsbD 1) ^^ v.getLsbD 2
    par 1#3 ≠ par State.reset.cap.hallLines ∧ par 7#3 ≠ par State.reset.cap.hallLines ∧
      par 0#3 = par State.reset.cap.hallLines ∧ par 3#3 = par State.reset.cap.hallLines := by decide +kernel

/-- The count on each side of the limit 2600, and saturated. -/
theorem witness_OvfTickAndClkAdvCount :
    let n := fun c : Nat => if c < 2 ^ defaultPar.wStall - 1 then c + 1 else c
    defaultPar.stallLimit < n 2600 ∧ n 2599 ≤ defaultPar.stallLimit ∧ defaultPar.stallLimit < n 65535 ∧
      n 0 ≤ defaultPar.stallLimit := by decide

theorem witness_TimeoutComesAfterStallLimit :
    State.reset.cap.stallCount = 0 ∧ State.reset.cap.timedOut = false ∧ 0 < 2 ^ defaultPar.wStall ∧
      2601 < 2 ^ defaultPar.wStall ∧ 65535 < 2 ^ defaultPar.wStall := by decide +kernel

theorem witness_CaptureStreamNeverStopsBlock :
    (State.reset.withStream [0x00000101#32, 0x00000002#32, 0x0CF85003#32, 0x00000070#32]).env.stream =
      [CaptureOp.hallIn 1#3, .ovfTick, .clkAdv 850000#24].flatMap (fun op => encode (captureInstr op)) ++ [0x00000070#32] := by
  decide +kernel

theorem witness_EstUpdateFollowsTheCapture :
    portOff.par.testPortEn = false ∧ State.reset.par.testPortEn = true ∧
    (before .openLoop 3#3 true false true .running).cap.timedOut = true ∧
    (before .openLoop 0#3 false false true .running).cap.rawState = 0#3 ∧
    (before .openLoop 7#3 false false true .running).cap.rawState = 7#3 ∧
    hallIndex defaultHallMap (before .openLoop 1#3 false false true .running).cap.rawState = some 0 ∧
    hallIndex defaultHallMap (before .openLoop 5#3 false false true .running).cap.rawState = some 5 ∧
    (before .openLoop 5#3 false false true .running).cap.timedOut = false := by decide +kernel

/-- The operand checks of the one-operand and two-operand operations met and missed; 0x7F7FFFFF is the largest finite value. -/
theorem witness_EstResetSeedAndOffset :
    portOff.par.testPortEn = false ∧ (loaded 0x7F800000#32 0 0 0).par.testPortEn = true ∧
    fIsFinite (loaded 0x7F800000#32 0 0 0).opr.a0 = false ∧ fIsFinite (loaded 0x7F7FFFFF#32 0 0 0).opr.a0 = true := by
  decide +kernel

theorem witness_HallIndexIsInjective :
    hallIndex defaultHallMap 6#3 = some 3 ∧ hallIndex defaultHallMap 5#3 = some 5 := by decide

theorem witness_InverseTransformsGiveTheirFormulas :
    let ok := fun s : State => fIsFinite s.opr.a0 && fIsFinite s.opr.a1 && fIsFinite s.opr.a2
    portOff.par.testPortEn = false ∧ (loaded 0 0 0 0).par.testPortEn = true ∧ ok (loaded 0 0 0x7FC00000#32 0) = false ∧
    ok (loaded 0x7F7FFFFF#32 0xFF7FFFFF#32 0x00000001#32 0) = true ∧
    (fIsFinite (loaded 0 0xFF800000#32 0 0).opr.a0 && fIsFinite (loaded 0 0xFF800000#32 0 0).opr.a1) = false := by
  decide +kernel

theorem witness_LimitVScalesOnlyAboveTheLimit :
    let ok := fun s : State => fIsFinite s.opr.a0 && fIsFinite s.opr.a1 && fIsFinite s.opr.a2 && fLe 0#32 s.opr.a2
    portOff.par.testPortEn = false ∧ (loaded 0 0 0 0).par.testPortEn = true ∧ ok (loaded 0 0 0 0) = true ∧
    ok (loaded 0 0 0x80000000#32 0) = true ∧ ok (loaded 0 0 0x80000001#32 0) = false := by decide +kernel

theorem witness_SvpwmGivesItsDuties :
    let ok := fun s : State => fIsFinite s.opr.a0 && fIsFinite s.opr.a1 && fIsFinite s.opr.a2 &&
      decide (1 ≤ s.opr.a3.toNat ∧ s.opr.a3.toNat < 2 ^ s.par.wDuty)
    portOff.par.testPortEn = false ∧ (loaded 0 0 0 0).par.testPortEn = true ∧ ok (loaded 0 0 0 1) = true ∧
    ok (loaded 0 0 0 65535) = true ∧ ok (loaded 0 0 0 0) = false ∧ ok (loaded 0 0 0 65536) = false := by decide +kernel

/-- Bus voltages at and below 0; finite values, the largest and the smallest. -/
theorem witness_SvpwmRangeAndSafeDefault :
    1 ≤ 65535 ∧ 65535 ≤ 65535 ∧ fLe 0x00000000#32 0#32 = true ∧ fLe 0x80000000#32 0#32 = true ∧
    fLe 0xFF800000#32 0#32 = true ∧ fIsFinite 0x7F7FFFFF#32 = true ∧ fIsFinite 0x00000001#32 = true := by decide +kernel

/-- Each clause's operand out of range, at the value nearest to its range. -/
theorem witness_BadOperandsWriteNothing :
    State.reset.par.testPortEn = true ∧ fIsFinite 0x7F800000#32 = false ∧ fIsFinite 0xFFC00000#32 = false ∧
    fLt 0x80000001#32 0#32 = true ∧ (0#32).toNat = 0 ∧ 2 ^ defaultPar.wDuty ≤ (65536#32).toNat ∧
    fLe 0x40A00000#32 0x40A00000#32 = true ∧ fLe 0x00000000#32 0#32 = true ∧ fLt 0x3F800000#32 0x3F800001#32 = true := by decide +kernel

theorem witness_PiUpdateFormsOutput :
    let ok := fun s : State => fIsFinite s.opr.a0 && fIsFinite s.opr.a1 && fIsFinite s.opr.a2
    portOff.par.testPortEn = false ∧ (loaded 0 0 0 0).par.testPortEn = true ∧ ok (loaded 0 0x7F800000#32 0 0) = false ∧
    ok (loaded 0x41A00000#32 0x00000000#32 0x3DCCCCCD#32 0) = true := by decide +kernel

theorem witness_PiSettingsAreApplied :
    portOff.par.testPortEn = false ∧ (loaded 0 0 0 0).par.testPortEn = true ∧
    (fIsFinite 0x3F800000#32 && fIsFinite 0x7FC00000#32) = false ∧
    (fIsFinite 0xC2C80000#32 && fIsFinite 0x42C80000#32 && fLt 0xC2C80000#32 0x42C80000#32) = true ∧
    (fIsFinite 0x40A00000#32 && fIsFinite 0x40A00000#32 && fLt 0x40A00000#32 0x40A00000#32) = false ∧
    (fIsFinite 0x00000001#32 && fLt 0#32 0x00000001#32) = true ∧ (fIsFinite 0#32 && fLt 0#32 0#32) = false := by decide +kernel

/-- Limits in order, and a value below, above and between them. -/
theorem witness_PiOutputStaysWithinLimits :
    let p := State.reset.pi
    fLt p.outMin p.outMax = true ∧ fLt 0xFF800000#32 p.outMin = true ∧ fLt p.outMax 0x7F800000#32 = true ∧
    fLt p.outMin 0x00000000#32 = true ∧ fLt 0x00000000#32 p.outMax = true := by decide +kernel

/-- An operation of the test port, a closed-loop tick, and the tick that hands off. -/
theorem witness_IntegralMovesOnlyInsideLimits :
    (∃ t, exec .piUpdate State.reset = .next t) ∧
    (∃ t, exec .ctrlTick (before .closedLoopFoc 3#3 false false true .running) = .next t) ∧
    ¬ handsOff (before .closedLoopFoc 3#3 false false true .running) ∧ handsOff (reached 1#3) :=
  ⟨⟨_, rfl⟩, ⟨_, rfl⟩, fun h => Mode.noConfusion h.2.1, by unfold handsOff; decide +kernel⟩

theorem witness_OlInitAndResetRestartTheRamp :
    let ok := fun a0 a1 a2 a3 : Word => fIsFinite a0 && fIsFinite a1 && fIsFinite a2 && fIsFinite a3 && fLt 0#32 a0 &&
      fLt 0#32 a1 && fLe 0#32 a2 && fLe 0#32 a3 && fLe a3 0x3F800000#32
    portOff.par.testPortEn = false ∧ (loaded 0 0 0 0).par.testPortEn = true ∧ ok 0x00000001#32 0x00000001#32 0 0 = true ∧
    ok 0x42C80000#32 0x43C80000#32 0 0x3F800000#32 = true ∧ ok 0 0x43C80000#32 0 0 = false := by decide +kernel

theorem witness_OlUpdateStepsOncePerPeriod :
    portOff.par.testPortEn = false ∧ (loaded 0 0 0 0).par.testPortEn = true ∧
    (fIsFinite (loaded 0 0 0 0).opr.a0 && fLe 0#32 (loaded 0 0 0 0).opr.a0) = true ∧
    (fIsFinite 0xBC23D70A#32 && fLe 0#32 0xBC23D70A#32) = false := by decide +kernel

theorem witness_OlReadoutsFollowThePeriod : portOff.par.testPortEn = false ∧ State.reset.par.testPortEn = true := by
  decide +kernel

/-- An operation of the test port, and an enabled tick of a calibration that runs. -/
theorem witness_TargetStaysReached :
    (∃ t, exec .olUpdate (reached 1#3) = .next t) ∧ olReached f32Num (reached 1#3).ol = true ∧
    Instr.olUpdate ≠ .olInit ∧ Instr.olUpdate ≠ .olReset ∧ Instr.olUpdate ≠ .reset ∧ Instr.olUpdate ≠ .ctrlTick ∧
    (let s := (before .calibration 3#3 false false true .running).withOl (reached 1#3).ol
     olReached f32Num s.ol = true ∧ ¬ restartsRamp s) :=
  ⟨⟨_, rfl⟩, by decide +kernel, by decide, by decide, by decide, by decide, by unfold restartsRamp calibrating; decide +kernel⟩

theorem witness_RampFollowsTargetAtItsRate :
    let ok := fun s : State => fIsFinite s.opr.a0 && fIsFinite s.opr.a1 && fLe 0#32 s.opr.a1
    portOff.par.testPortEn = false ∧ (loaded 0 0 0 0).par.testPortEn = true ∧ ok (loaded 0 0 0 0) = true ∧
    ok (loaded 0 0xBF800000#32 0 0) = false ∧ fIsFinite (loaded 0x7F800000#32 0 0 0).opr.a0 = false := by decide +kernel

/-- Disabled by EN, and by volt_ok with EN set. -/
theorem witness_DisabledTickShutsDown :
    tickEnabled (State.reset.withEnv { State.reset.env with ticks := [input true .running] }) = false ∧
    tickEnabled (before .closedLoopFoc 3#3 false true false .running) = false ∧
    (before .closedLoopFoc 3#3 false true false .running).hreg.en = true := by decide +kernel

theorem witness_OpenLoopTickDrivesPattern :
    let s := before .openLoop 3#3 false false true .running
    let s' := (reached 7#3)
    (tickEnabled s = true ∧ s.co.mode = .openLoop ∧ s.co.calReq = false ∧ olReached f32Num s.ol = false) ∧
    (tickEnabled s' = true ∧ s'.co.mode = .openLoop ∧ s'.co.calReq = false ∧
      hallValid (tickSnapshot s').raw (tickSnapshot s').timedOut = false) := by decide +kernel

theorem witness_FocTickDrivesSpeedLoop :
    let s := before .closedLoopFoc 3#3 false false true .running
    tickEnabled s = true ∧ s.co.mode = .closedLoopFoc ∧ s.co.calReq = false ∧
      hallValid (tickSnapshot s).raw (tickSnapshot s).timedOut = true := by decide +kernel

theorem witness_HandoffSeedsAndDrives : handsOff (reached 1#3) := by unfold handsOff; decide +kernel

/-- Timed out with a valid code, and each invalid code. -/
theorem witness_SafetyStopZeroesDuties :
    let s := fun raw timedOut => before .closedLoopFoc raw timedOut false true .running
    (tickEnabled (s 3#3 true) = true ∧ (s 3#3 true).co.mode = .closedLoopFoc ∧ (s 3#3 true).co.calReq = false ∧
      (tickSnapshot (s 3#3 true)).timedOut = true) ∧
    (tickSnapshot (s 0#3 false)).raw = 0#3 ∧ (tickSnapshot (s 7#3 true)).raw = 7#3 := by decide +kernel

/-- A request from OpenLoop, and a session that goes on. -/
theorem witness_CalibrationTickDrivesCommand :
    let s := before .openLoop 3#3 false true true .running
    let s' := before .calibration 3#3 false false true .running
    (tickEnabled s = true ∧ s.co.calReq = true ∧ (tickInput f32Num s.env).cal.status = .running) ∧
    (tickEnabled s' = true ∧ s'.co.mode = .calibration ∧ (tickInput f32Num s'.env).cal.status = .running) := by decide +kernel

/-- A request from OpenLoop, and a session that goes on. -/
theorem witness_CalibrationSuccessAppliesOffset :
    let s := before .openLoop 3#3 false true true .succeeded
    let s' := before .calibration 3#3 false false true .succeeded
    (tickEnabled s = true ∧ s.co.calReq = true ∧ (tickInput f32Num s.env).cal.status = .succeeded) ∧
    (tickEnabled s' = true ∧ s'.co.mode = .calibration ∧ (tickInput f32Num s'.env).cal.status = .succeeded) := by decide +kernel

/-- A request from OpenLoop, and a session that goes on. -/
theorem witness_CalibrationFailureReverts :
    let s := before .openLoop 3#3 false true true .failed
    let s' := before .calibration 3#3 false false true .failed
    (tickEnabled s = true ∧ s.co.calReq = true ∧ (tickInput f32Num s.env).cal.status = .failed) ∧
    (tickEnabled s' = true ∧ s'.co.mode = .calibration ∧ (tickInput f32Num s'.env).cal.status = .failed) := by decide +kernel

theorem witness_ModeFollowsTransitionGraph :
    ∃ t, exec .ctrlTick (before .closedLoopFoc 3#3 false false false .running) = .next t ∧
      t.co.mode ≠ (before .closedLoopFoc 3#3 false false false .running).co.mode :=
  ⟨_, rfl, by decide +kernel⟩

theorem witness_TickLatchesGainsAndConsumesRequest : ∃ t, exec .ctrlTick State.reset = .next t := ⟨_, rfl⟩

/-- A defined index, and each end of each reserved range. -/
theorem witness_RegReadReturnsView :
    view f32Num State.reset 0x1C#8 = some 0#32 ∧ view f32Num State.reset 0x05#8 = none ∧ view f32Num State.reset 0x07#8 = none ∧
    view f32Num State.reset 0x0F#8 = none ∧ view f32Num State.reset 0x1D#8 = none ∧
    view f32Num State.reset 0xFF#8 = none := by decide +kernel

/-- Values of each sign below the overflow bound, and finite patterns. -/
theorem witness_RealRegistersShowNearestAndTakeExact :
    |(0 : ℝ)| < 2 ^ 128 - 2 ^ 103 ∧ |(-1 : ℝ)| < 2 ^ 128 - 2 ^ 103 ∧ fIsFinite 0x80000000#32 = true ∧
    fIsFinite 0x7F7FFFFF#32 = true := by
  refine ⟨by norm_num, by norm_num, by decide, by decide⟩

theorem witness_RegWriteActsByIndex :
    fIsFinite 0x7F7FFFFF#32 = true ∧ fIsFinite 0x7F800000#32 = false ∧
    (0x04#8 ∈ ([0x01, 0x02, 0x03, 0x04] : List (BitVec 8))) ∧
    (0x05#8 ∉ ([0x00, 0x01, 0x02, 0x03, 0x04, 0x08, 0x09, 0x0A, 0x0B, 0x18] : List (BitVec 8))) ∧
    (0xFF#8 ∉ ([0x00, 0x01, 0x02, 0x03, 0x04, 0x08, 0x09, 0x0A, 0x0B, 0x18] : List (BitVec 8))) := by decide

theorem witness_AdapterMapsWordAccesses :
    (0 % 4 = 0 ∧ 0 ≤ 1020) ∧ (1020 % 4 = 0 ∧ 1020 ≤ 1020) ∧ (1024 % 4 = 0 ∧ 1020 < 1024) ∧ (1021 % 4 ≠ 0 ∨ 4 ≠ 4) ∧
    (1020 % 4 ≠ 0 ∨ 2 ≠ 4) := by decide

theorem witness_ResetPutsResetValues :
    cfgValid f32Num 16 State.reset.env.cfgIn = true ∧ cfgValid f32Num 16 { defaultCfg with polePairs := 0 } = false ∧
    cfgValid f32Num 16 { defaultCfg with polePairs := 255 } = true ∧
    cfgValid f32Num 16 { defaultCfg with maxDuty := 65536 } = false := by
  decide +kernel

theorem witness_FaultsAreRecordedAndSticky :
    (∃ t, exec .ctrlTick (raiseFault .badValue State.reset) = .next t) ∧ Instr.ctrlTick ≠ .reset ∧
    (∀ data, Instr.ctrlTick ≠ .regWrite 0x18 data) ∧ (raiseFault .badValue State.reset).co.fault.getLsbD 6 = true ∧
    ∃ t, exec .reset (raiseFault .badValue State.reset) = .next t :=
  ⟨⟨_, rfl⟩, by decide, by intro data; simp, by decide +kernel, _,
    resetSequence_legal (env := State.reset.env) _ defaultCfg_valid⟩

theorem witness_PwmPortChangesOnlyInTickAndReset :
    (∃ t, exec .svpwm State.reset = .next t) ∧ Instr.svpwm ≠ .ctrlTick ∧ Instr.svpwm ≠ .reset :=
  ⟨⟨_, rfl⟩, by decide, by decide⟩

theorem witness_WritersOfCapResultsAndHreg :
    (∃ t, exec .ctrlTick State.reset = .next t) ∧ Instr.ctrlTick ≠ .reset ∧ (∀ l, Instr.ctrlTick ≠ .hallIn l) ∧
    Instr.ctrlTick ≠ .ovfTick ∧ (∀ n, Instr.ctrlTick ≠ .clkAdv n) ∧ Instr.testPortOnly .ctrlTick = false ∧
    (∀ idx data, Instr.ctrlTick ≠ .regWrite idx data) :=
  ⟨⟨_, rfl⟩, by decide, by intro l; simp, by decide, by intro n; simp, rfl, by intro idx data; simp⟩

theorem witness_InvHoldsAtPowerOn :
    cfgValid f32Num defaultPar.wDuty (envIdle f32Num defaultCfg).cfgIn = true ∧
    cfgValid f32Num defaultPar.wDuty (envIdle f32Num { defaultCfg with polePairs := 0 }).cfgIn = false := by decide +kernel

/-- A state of the invariant in the middle of a run, and its next one. -/
theorem witness_EveryStepKeepsInv :
    let s := (before .closedLoopFoc 3#3 false true true .running).withStream [0x00000070#32]
    Inv s ∧ ∃ t, step s = .next t := by
  refine ⟨⟨?_, ?_, ?_, ?_, ?_, ?_, ?_, ?_, ?_, ?_, ?_, ?_, ?_, ?_, ?_, ?_, ?_, ?_, ?_, ?_, ?_, ?_⟩, _, rfl⟩ <;> decide +kernel

/-- The largest finite value, a divisor that is not 0, and two addends whose exact sum is 0. -/
theorem witness_ArithmeticIsCorrectlyRounded :
    fIsFinite 0x7F7FFFFF#32 = true ∧ fIsFinite 0x00000001#32 = true ∧ fSigned 0x00000001#32 ≠ 0 ∧
    fSigned 0x3F800000#32 = - fSigned 0xBF800000#32 ∧ fScale 0x3F800000#32 = fScale 0xBF800000#32 := by decide +kernel

/-- Rounding at the tie 2^24 + 1, at the overflow bound, and of a quotient. -/
theorem test_rounding :
    fAdd 0x4B800000#32 0x3F800000#32 = 0x4B800000#32 ∧ fAdd 0x4B800001#32 0x3F800000#32 = 0x4B800002#32 ∧
    fAdd 0x7F7FFFFF#32 0x73000000#32 = 0x7F800000#32 ∧ fAdd 0x7F7FFFFF#32 0x72FFFFFF#32 = 0x7F7FFFFF#32 ∧
    fDiv 0x3F800000#32 0x40400000#32 = 0x3EAAAAAB#32 := by decide +kernel

/-! ### NUM = REAL (30_encoding R103) -/

/-- The values of the patterns of 1.5 and −2. -/
theorem test_realOfBits : realOfBits 0x3FC00000#32 = 3 / 2 ∧ realOfBits 0xC0000000#32 = -2 := by
  have h1 : fSigned 0x3FC00000#32 = 12582912 := by decide +kernel
  have h2 : fScale 0x3FC00000#32 = -23 := by decide +kernel
  have h3 : fSigned 0xC0000000#32 = -8388608 := by decide +kernel
  have h4 : fScale 0xC0000000#32 = -22 := by decide +kernel
  constructor
  · rw [realOfBits, h1, h2]; norm_num
  · rw [realOfBits, h3, h4]; norm_num

/-- The pattern of −2. -/
theorem test_realBits32 : realBits32 (-2) = 0xC0000000#32 := by
  have hl : Int.log 2 |(-2 : ℝ)| = 1 := by
    have := Int.log_zpow (R := ℝ) (b := 2) (by norm_num) 1
    simpa using this
  have hr : roundEven (|(-2 : ℝ)| / (2 : ℝ) ^ (-22 : Int)) = 8388608 := by
    have : |(-2 : ℝ)| / (2 : ℝ) ^ (-22 : Int) = ((8388608 : ℕ) : ℝ) := by norm_num
    rw [this, roundEven]; simp
  unfold realBits32
  rw [if_neg (by norm_num)]
  have hq : max ((1 : Int) - 23) (-149) = -22 := by decide
  rw [hl, hq]
  dsimp only
  rw [hr, if_pos (by decide), decide_eq_true (by norm_num : (-2 : ℝ) < 0)]
  decide

theorem witness_ComparisonIsByValue : fIsFinite 0x80000000#32 = true ∧ fIsFinite 0x7F7FFFFF#32 = true := by decide +kernel

end Sys2Proof.Tests
end

/-! ## Illegal command words (30_encoding R94)

The decoder's arms by format, what an arm answers for a nonzero reserved bit, and the port's step from an illegal word. -/

namespace Sys2Proof

/-- The opcodes of format N in the map of 30_encoding R93. -/
def formatNOpcodes : List (BitVec 8) :=
  [0x00, 0x02, 0x10, 0x11, 0x12, 0x13, 0x20, 0x21, 0x22, 0x30, 0x40, 0x41, 0x42, 0x43, 0x44,
    0x50, 0x51, 0x52, 0x53, 0x54, 0x60, 0x61, 0x70, 0x7F]

section Formats

variable {w : Word} (rest : List Word)

/-! ### A nonzero reserved bit of each format -/

theorem decodeN_reservedBits (i : Instr) (h : w.extractLsb' 8 24 ≠ 0#24) :
    decodeN w rest i = .illegal .reservedBits rest := if_neg h

theorem decodeH_reservedBits (i : HallCode → Instr) (h : w.extractLsb' 11 21 ≠ 0#21) :
    decodeH w rest i = .illegal .reservedBits rest := if_neg h

theorem decodeI_reservedBits (i : BitVec 8 → Instr) (h : w.extractLsb' 16 16 ≠ 0#16) :
    decodeI w rest i = .illegal .reservedBits rest := if_neg h

/-- The reserved bits are looked at before the data word, so `rest` keeps it. -/
theorem decodeIW_reservedBits (i : BitVec 8 → Word → Instr) (h : w.extractLsb' 16 16 ≠ 0#16) :
    decodeIW w rest i = .illegal .reservedBits rest := if_neg h

/-! ### The decoder's arm by opcode -/

theorem decodeCommand_of_formatN (h : wordOpcode w ∈ formatNOpcodes) :
    ∃ i, decodeCommand w rest = decodeN w rest i := by
  unfold decodeCommand
  split
  -- The arms of formats H, C, I and IW, then the arm of an opcode outside the map.
  case h_2 hop | h_4 hop | h_26 hop | h_27 hop => rw [hop] at h; exact absurd h (by decide)
  case h_29 => simp_all [formatNOpcodes]
  all_goals exact ⟨_, rfl⟩

theorem decodeCommand_of_hallIn (h : wordOpcode w = 0x01#8) :
    decodeCommand w rest = decodeH w rest .hallIn := by
  simp [decodeCommand, h]

theorem decodeCommand_of_regRead (h : wordOpcode w = 0x71#8) :
    decodeCommand w rest = decodeI w rest .regRead := by
  simp [decodeCommand, h]

theorem decodeCommand_of_regWrite (h : wordOpcode w = 0x72#8) :
    decodeCommand w rest = decodeIW w rest .regWrite := by
  simp [decodeCommand, h]

theorem decodeCommand_of_unknownOpcode (hN : wordOpcode w ∉ formatNOpcodes)
    (h : wordOpcode w ∉ ([0x01, 0x03, 0x71, 0x72] : List (BitVec 8))) :
    decodeCommand w rest = .illegal .unknownOpcode rest := by
  unfold decodeCommand
  split
  case h_29 => rfl
  -- The arms of formats H, C, I and IW are excluded by `h`, those of format N by `hN`.
  case h_2 hop | h_4 hop | h_26 hop | h_27 hop => rw [hop] at h; exact absurd (by decide) h
  all_goals
    next hop => rw [hop] at hN; exact absurd (by decide) hN

end Formats

namespace Machine

open Sys2Proof.Safety

/-! ### The port's step from an illegal word -/

theorem raiseFault_illegalOp (s : State) : raiseFault .illegalOp s = recorded 4 s := rfl

/-- What follows the illegal word is what its decoding leaves (20_memory R77, 60_exceptions R297). -/
theorem step_of_illegal {s : State} {why : IllegalWord} {rest : List Word}
    (h : decode s.env.stream = .illegal why rest) :
    step s = .next (recorded 4 { s with env := { s.env with stream := rest } }) := by
  simp only [step, portStep, h, raiseFault_illegalOp]
  rfl

/-- Settles O5: each of the four disjuncts names one arm of the decoder, which answers `.illegal` and leaves the words after the
first. -/
theorem illegalWordRaisesIllegalOp : Obligations.IllegalWordRaisesIllegalOp := by
  intro s w rest hs op formatN hill
  obtain ⟨why, hdec⟩ : ∃ why, decodeCommand w rest = .illegal why rest := by
    rcases hill with ⟨hN, hop⟩ | ⟨hN, hbits⟩ | ⟨hop, hbits⟩ | ⟨hop | hop, hbits⟩
    · exact ⟨_, decodeCommand_of_unknownOpcode rest hN hop⟩
    · obtain ⟨i, hi⟩ := decodeCommand_of_formatN rest hN
      exact ⟨_, hi.trans (decodeN_reservedBits rest i hbits)⟩
    · exact ⟨_, (decodeCommand_of_hallIn rest hop).trans (decodeH_reservedBits rest _ hbits)⟩
    · exact ⟨_, (decodeCommand_of_regRead rest hop).trans (decodeI_reservedBits rest _ hbits)⟩
    · exact ⟨_, (decodeCommand_of_regWrite rest hop).trans (decodeIW_reservedBits rest _ hbits)⟩
  exact step_of_illegal (by rw [hs]; exact hdec)

end Machine

end Sys2Proof

/-! ## HallCapture (40_capture R110 to R113)

What each capture operation leaves in CAP, by the branches of its rule. The block writes nothing else: the three `exec_` lemmas. -/

namespace Sys2Proof.Machine

/-! ### A capture operation writes CAP alone -/

theorem exec_hallIn (lines : HallCode) (s : State) :
    exec (.hallIn lines) s = .next (s.withCap (capHallIn lines s.cap)) := rfl

theorem exec_ovfTick (s : State) : exec .ovfTick s = .next (s.withCap (capOvfTick s.par s.cap)) := rfl

theorem exec_clkAdv (n : BitVec 24) (s : State) :
    exec (.clkAdv n) s = .next (s.withCap (capClkAdv s.par n s.cap)) := rfl

/-! ### The branch of HALL_IN -/

theorem isEdge_eq_true_iff {old new : HallCode} : isEdge old new = true ↔ parity new ≠ parity old := bne_iff_ne

theorem isEdge_eq_false_iff {old new : HallCode} : isEdge old new = false ↔ parity new = parity old := bne_eq_false_iff_eq

/-! ### The branches of OVF_TICK, on the count after the tick -/

section OvfTick

variable {N : Type} {par : Par N} {c : Cap}

theorem capOvfTick_timeout (h : par.stallLimit < stallNext par.wStall c.stallCount) :
    capOvfTick par c =
      { c with stallCount := stallNext par.wStall c.stallCount, timedOut := true, periodCycles := 0 } := if_pos h

theorem capOvfTick_noTimeout (h : stallNext par.wStall c.stallCount ≤ par.stallLimit) :
    capOvfTick par c = { c with stallCount := stallNext par.wStall c.stallCount } := if_neg h.not_gt

end OvfTick

/-! ### The obligations -/

/-- Settles O9: the two clauses are the two branches of HALL_IN, told apart by the parity of the lines. -/
theorem hallInRecordsQualifyingEdges : Obligations.HallInRecordsQualifyingEdges := by
  intro lines s old
  constructor
  · intro (hparity : parity lines ≠ parity old)
    rw [exec_hallIn, capHallIn_edge (isEdge_eq_true_iff.mpr hparity)]
    rfl
  · intro (hparity : parity lines = parity old)
    rw [exec_hallIn, capHallIn_noEdge (isEdge_eq_false_iff.mpr hparity)]
    rfl

/-- Settles O10: the statement's count is `stallNext`, and the limit tells the two branches of OVF_TICK apart; CLK_ADV has one
branch. -/
theorem ovfTickAndClkAdvCount : Obligations.OvfTickAndClkAdvCount := by
  intro s n
  refine ⟨?timeout, ?noTimeout, ?clkAdv⟩
  case timeout =>
    intro hlimit
    rw [exec_ovfTick, capOvfTick_timeout hlimit]
    rfl
  case noTimeout =>
    intro hlimit
    rw [exec_ovfTick, capOvfTick_noTimeout hlimit]
    rfl
  case clkAdv => exact fun cycles => exec_clkAdv cycles s

end Sys2Proof.Machine

/-! ## HallPositionEstimator (41_estimator R132 to R144)

The index of a raw code as an entry of HALL_MAP, the branches of EST_UPDATE on the index of its snapshot, and what the estimator's
unit operations leave behind their gates. -/

namespace Sys2Proof.Machine

open Sys2Proof.Safety

/-! ### HALL_MAP as the list of its entries -/

/-- The entries of HALL_MAP in the order of the codes 1 to 6. -/
def hallEntries (m : HallMap) : List (Fin 6) := [m.code1, m.code2, m.code3, m.code4, m.code5, m.code6]

theorem hallIndex_eq_getElem? (m : HallMap) {raw : HallCode} (h0 : raw ≠ 0#3) :
    hallIndex m raw = (hallEntries m)[raw.toNat - 1]? := by
  unfold hallIndex
  split
  -- The codes 1 to 6 each name their entry; the code 7 is behind the last one.
  case h_7 h1 h2 h3 h4 h5 h6 =>
    have h7 : raw = 7#3 := by
      simp only [imp_false] at h1 h2 h3 h4 h5 h6
      bv_omega
    rw [h7]
    rfl
  all_goals rfl

theorem hallIndex_zero (m : HallMap) : hallIndex m 0#3 = none := rfl

theorem hallIndex_seven (m : HallMap) : hallIndex m 7#3 = none := rfl

/-- Only the codes of a VALID snapshot have an index. -/
theorem ne_of_hallIndex_eq_some {m : HallMap} {raw : HallCode} {idx : Fin 6} (h : hallIndex m raw = some idx) :
    raw ≠ 0#3 ∧ raw ≠ 7#3 := by
  constructor
  · rintro rfl
    rw [hallIndex_zero] at h
    cases h
  · rintro rfl
    rw [hallIndex_seven] at h
    cases h

/-- No entry stands twice in HALL_MAP, so a code is known by its index. -/
theorem hallIndex_injective {m : HallMap} {a b : HallCode} {idx : Fin 6} (ha : hallIndex m a = some idx)
    (hb : hallIndex m b = some idx) : a = b := by
  obtain ⟨ha0, -⟩ := ne_of_hallIndex_eq_some ha
  obtain ⟨hb0, -⟩ := ne_of_hallIndex_eq_some hb
  rw [hallIndex_eq_getElem? m ha0] at ha
  rw [hallIndex_eq_getElem? m hb0] at hb
  obtain ⟨hlt, -⟩ := List.getElem?_eq_some_iff.mp ha
  have hpos : a.toNat - 1 = b.toNat - 1 := (List.getElem?_inj hlt m.bijective).mp (ha.trans hb.symm)
  bv_omega

/-- Six different entries out of six indices are all of them. -/
theorem mem_hallEntries (m : HallMap) (idx : Fin 6) : idx ∈ hallEntries m := by
  have hcard : (hallEntries m).toFinset.card = 6 := List.toFinset_card_of_nodup m.bijective
  rw [← List.mem_toFinset, Finset.eq_univ_of_card _ hcard]
  exact Finset.mem_univ idx

theorem exists_hallIndex_eq_some (m : HallMap) (idx : Fin 6) : ∃ raw, hallIndex m raw = some idx := by
  obtain ⟨k, hk⟩ := List.mem_iff_getElem?.mp (mem_hallEntries m idx)
  obtain ⟨hlt, -⟩ := List.getElem?_eq_some_iff.mp hk
  have hk6 : k < 6 := hlt
  have hnat : (BitVec.ofNat 3 (k + 1)).toNat = k + 1 := by simp only [BitVec.toNat_ofNat]; omega
  refine ⟨BitVec.ofNat 3 (k + 1), ?_⟩
  rw [hallIndex_eq_getElem? m (by bv_omega), hnat, Nat.add_sub_cancel, hk]

/-! ### The index of a snapshot -/

section EstUpdate

variable {N F : Type} {par : Par N} {snap : Snapshot}

theorem snapshotIndex_valid {idx : Fin 6} (hto : snap.timedOut = false) (hidx : hallIndex par.hallMap snap.raw = some idx) :
    snapshotIndex par snap = some idx := by
  have hvalid : hallValid snap.raw snap.timedOut = true := by
    simp [hallValid, hto, ne_of_hallIndex_eq_some hidx]
  rw [snapshotIndex, if_pos hvalid, hidx]

theorem snapshotIndex_invalid (h : snap.timedOut = true ∨ snap.raw = 0#3 ∨ snap.raw = 7#3) :
    snapshotIndex par snap = none := by
  have hinvalid : ¬ hallValid snap.raw snap.timedOut = true := by
    rcases h with h | h | h <;> simp [hallValid, h]
  exact if_neg hinvalid

/-! ### The steps of a valid update -/

/-- The index step of R134 is taken modulo 6. -/
theorem fin6_sub_eq_iff (idx p : Fin 6) {k : Nat} (hk : k < 6) :
    idx - p = ⟨k, hk⟩ ↔ (idx.val + 6 - p.val) % 6 = k := by
  rw [Fin.ext_iff, Fin.sub_def]
  have hcomm : 6 - p.val + idx.val = idx.val + 6 - p.val := by omega
  simp only [hcomm]

theorem dirAfter_some (p idx : Fin 6) (dir : Dir) :
    dirAfter (some p) idx dir =
      if (idx.val + 6 - p.val) % 6 = 1 then .forward else if (idx.val + 6 - p.val) % 6 = 5 then .backward else dir := by
  simp only [dirAfter, ← fin6_sub_eq_iff idx p (by decide : 1 < 6), ← fin6_sub_eq_iff idx p (by decide : 5 < 6)]
  rfl

theorem baseAfter_some (n6 : Nat) (p idx : Fin 6) (base : Nat) :
    baseAfter n6 (some p) idx base =
      if p.val = 5 ∧ idx.val = 0 then (base + 6) % n6
      else if p.val = 0 ∧ idx.val = 5 then (base + n6 - 6) % n6
      else base := by
  simp only [baseAfter, Fin.ext_iff]
  rfl

theorem dirNum_eq (dir : Dir) : dirNum f32Num dir = if dir = .forward then 0x3F800000#32 else 0xBF800000#32 := by
  cases dir
  · rfl
  · decide +kernel

/-! ### The branches of EST_UPDATE, on the index of its snapshot -/

variable {d : NumDomain N F} {cfg : Cfg N} {e : Est N}

theorem estUpdate_noIndex (h : snapshotIndex par snap = none) :
    estUpdate d par cfg snap e =
      { e with speed := d.num0, valid := false, elec := elecAngle d cfg e.mech e.offset } := by
  simp only [estUpdate, h]

/-- What a valid update leaves, given what each of its steps computes, in the order of the rules R133 to R138. -/
theorem estUpdate_index {idx : Fin 6} {dir : Dir} {base : Nat} {inst speed mech : N}
    (h : snapshotIndex par snap = some idx) (hdir : dirAfter e.prevIndex idx e.dir = dir)
    (hbase : baseAfter (n6 cfg) e.prevIndex idx e.base = base) (hinst : instantSpeed d par cfg dir snap.period = inst)
    (hspeed : filterSpeed d cfg inst e.speed = speed)
    (hmech : mechAngle d par cfg snap (sectorAngle d cfg base idx) speed = mech) :
    estUpdate d par cfg snap e =
      { e with prevIndex := some idx, base := base, dir := dir, speed := speed, mech := mech,
               elec := elecAngle d cfg mech e.offset, valid := true } := by
  subst hdir hbase hinst hspeed hmech
  simp only [estUpdate, h]

end EstUpdate

/-! ### A unit operation's cases from its gates -/

theorem raiseFault_badValue (s : State) : raiseFault .badValue s = recorded 6 s := rfl

theorem unitRun_of_exec {i : Instr} {body : State → State} {s : State} (h : exec i s = unitOp body s) :
    unitRun i s (body s) :=
  ⟨fun hoff => by rw [h, unitOp_disabled body s hoff, raiseFault_illegalOp],
    fun hon => by rw [h, unitOp_enabled body s hon]⟩

theorem unitCase_of_exec {i : Instr} {ok : Bool} {body : State → State} {s : State}
    (h : exec i s = unitOp (checked ok body) s) : unitCase i ok s (body s) := by
  obtain ⟨hoff, hon⟩ := unitRun_of_exec h
  refine ⟨hoff, fun hport hbad => ?_, fun hport hok => ?_⟩
  · rw [hon hport, hbad, checked_bad, raiseFault_badValue]
  · rw [hon hport, hok, checked_ok]

/-- The body of EST_UPDATE: the update of the live capture, and its angles and speed as results. -/
def estUpdateBody (s : State) : State :=
  let e := estUpdate f32Num s.par s.cfg (liveSnapshot s.cap) s.est
  setRes012 e.mech e.elec e.speed (s.withEst e)

theorem unitRun_estUpdate (s : State) : unitRun .estUpdate s (estUpdateBody s) :=
  unitRun_of_exec (body := estUpdateBody) rfl

/-! ### The obligations -/

/-- Settles O14: with the port enabled the two clauses are the two branches of EST_UPDATE, a capture with an index and one
without. -/
theorem estUpdateFollowsTheCapture : Obligations.EstUpdateFollowsTheCapture := by
  intro s
  obtain ⟨hoff, hon⟩ := unitRun_estUpdate s
  refine ⟨hoff, ?invalid, ?valid⟩
  case invalid =>
    intro hport hcap elec
    rw [hon hport, estUpdateBody, estUpdate_noIndex (snapshotIndex_invalid hcap)]
    rfl
  case valid =>
    intro idx hport hto hidx n6 d dir base inst speed sa mech elec
    have hdir : dirAfter s.est.prevIndex idx s.est.dir = dir := by
      cases hprev : s.est.prevIndex with
      | none => simp only [dir, hprev, dirAfter]
      | some p => simp only [dir, d, hprev, dirAfter_some]
    have hbase : baseAfter (Machine.n6 s.cfg) s.est.prevIndex idx s.est.base = base := by
      cases hprev : s.est.prevIndex with
      | none => simp only [base, hprev, baseAfter]
      | some p => simp only [base, n6, hprev, baseAfter_some, Machine.n6]
    have hinst : instantSpeed f32Num s.par s.cfg dir s.cap.periodCycles = inst := by
      simp only [instantSpeed, dirNum_eq]
      rfl
    have hmech : mechAngle f32Num s.par s.cfg (liveSnapshot s.cap) sa speed = mech := by
      simp only [mechAngle, Bool.and_eq_true]
      rfl
    have hupdate := estUpdate_index (snapshotIndex_valid (snap := liveSnapshot s.cap) hto hidx) hdir hbase hinst
      (rfl : filterSpeed f32Num s.cfg inst s.est.speed = speed) hmech
    rw [hon hport, estUpdateBody, hupdate]
    rfl

/-- Settles O15: each clause is the operation's body behind its gates. -/
theorem estResetSeedAndOffset : Obligations.EstResetSeedAndOffset := by
  intro s
  refine ⟨?reset, ?seed, ?offset⟩
  case reset => exact unitRun_of_exec (body := fun u => u.withEst (estReset f32Num u.est)) rfl
  case seed => exact unitCase_of_exec (body := fun u => u.withEst (estSeed u.opr.a0 u.est)) rfl
  case offset =>
    exact unitCase_of_exec
      (body := fun u => u.withEst (estSetOffset f32Num u.cfg u.opr.a0 (u.opr.a1.getLsbD 0) u.est)) rfl

/-- Settles O18: HALL_MAP's six entries are six different indices. -/
theorem hallIndexIsInjective : Obligations.HallIndexIsInjective := fun m =>
  ⟨⟨rfl, rfl, rfl, rfl, rfl, rfl, hallIndex_zero m, hallIndex_seven m⟩,
    fun _ _ _ => hallIndex_injective, exists_hallIndex_eq_some m⟩

end Sys2Proof.Machine

/-! ## CoordinateTransform (42_transform R160 to R162)

The formulas of the inverse transforms, the two branches of the limiter, and what each operation leaves behind its gates. -/

namespace Sys2Proof.Machine

open Sys2Proof.Safety

/-! ### The formulas of the inverse transforms under NUM = F32 -/

theorem invPark_f32Num (vd vq theta : F32) :
    invPark f32Num vd vq theta =
      (fSub (fMul vd (Config.cos theta)) (fMul vq (Config.sin theta)),
        fAdd (fMul vd (Config.sin theta)) (fMul vq (Config.cos theta))) := rfl

theorem invClarke_f32Num (va vb : F32) :
    invClarke f32Num va vb =
      (va, fAdd (fNeg (fDiv va 0x40000000#32)) (fMul (fDiv sqrt3 0x40000000#32) vb),
        fSub (fNeg (fDiv va 0x40000000#32)) (fMul (fDiv sqrt3 0x40000000#32) vb)) := by
  simp only [invClarke, f32Num_add, f32Num_sub, f32Num_mul, f32Num_div, f32Num_neg, f32Num_num2, f32Num_sqrt3]

/-! ### The branches of the limiter, on the magnitude of its vector -/

section LimitVoltage

variable {N F : Type} {d : NumDomain N F} {vd vq max mag : N}

theorem limitVoltage_above (hmag : d.sqrt (d.add (d.mul vd vd) (d.mul vq vq)) = mag) (h : d.lt max mag = true) :
    limitVoltage d vd vq max = (d.mul vd (d.div max mag), d.mul vq (d.div max mag)) := by
  subst hmag
  exact if_pos h

theorem limitVoltage_within (hmag : d.sqrt (d.add (d.mul vd vd) (d.mul vq vq)) = mag) (h : ¬ d.lt max mag = true) :
    limitVoltage d vd vq max = (vd, vq) := by
  subst hmag
  exact if_neg h

end LimitVoltage

/-! ### A sign check on a finite operand -/

/-- A finite operand that is not below `y` is at or above it: no NaN is left to fail both comparisons (42_transform R162). -/
theorem fIsFinite_and_not_fLt (x y : F32) (hy : fIsNaN y = false) :
    (fIsFinite x && !fLt x y) = (fIsFinite x && fLe y x) := by
  cases hx : fIsFinite x
  · rfl
  · rw [fLt_eq_not_fLe hy (fIsNaN_of_fIsFinite hx), Bool.not_not]

/-! ### The operations behind their gates -/

theorem unitCase_invPark (s : State) :
    unitCase .invPark (fIsFinite s.opr.a0 && fIsFinite s.opr.a1 && fIsFinite s.opr.a2) s
      (setRes01 (invPark f32Num s.opr.a0 s.opr.a1 s.opr.a2).1 (invPark f32Num s.opr.a0 s.opr.a1 s.opr.a2).2 s) :=
  unitCase_of_exec
    (body := fun u =>
      let v := invPark f32Num u.opr.a0 u.opr.a1 u.opr.a2
      setRes01 v.1 v.2 u) rfl

theorem unitCase_invClarke (s : State) :
    unitCase .invClarke (fIsFinite s.opr.a0 && fIsFinite s.opr.a1) s
      (setRes012 (invClarke f32Num s.opr.a0 s.opr.a1).1 (invClarke f32Num s.opr.a0 s.opr.a1).2.1
        (invClarke f32Num s.opr.a0 s.opr.a1).2.2 s) :=
  unitCase_of_exec
    (body := fun u =>
      let v := invClarke f32Num u.opr.a0 u.opr.a1
      setRes012 v.1 v.2.1 v.2.2 u) rfl

theorem unitCase_limitV (s : State) :
    unitCase .limitV (fIsFinite s.opr.a0 && fIsFinite s.opr.a1 && fIsFinite s.opr.a2 && fLe 0#32 s.opr.a2) s
      (setRes01 (limitVoltage f32Num s.opr.a0 s.opr.a1 s.opr.a2).1 (limitVoltage f32Num s.opr.a0 s.opr.a1 s.opr.a2).2 s) := by
  rw [Bool.and_assoc, ← fIsFinite_and_not_fLt s.opr.a2 0#32 (by decide), ← Bool.and_assoc]
  exact unitCase_of_exec
    (body := fun u =>
      let v := limitVoltage f32Num u.opr.a0 u.opr.a1 u.opr.a2
      setRes01 v.1 v.2 u) rfl

/-! ### The obligations -/

/-- Settles O20: each operation writes the components of its transform, which are the stated formulas. -/
theorem inverseTransformsGiveTheirFormulas : Obligations.InverseTransformsGiveTheirFormulas := by
  intro s
  constructor
  · have hpark := unitCase_invPark s
    rw [invPark_f32Num, setRes01_eq] at hpark
    exact hpark
  · have hclarke := unitCase_invClarke s
    rw [invClarke_f32Num, setRes012_eq] at hclarke
    exact hclarke

/-- Settles O22: the comparison of the limit with the magnitude tells the limiter's two branches apart. -/
theorem limitVScalesOnlyAboveTheLimit : Obligations.LimitVScalesOnlyAboveTheLimit := by
  intro s mag f
  have hlimit := unitCase_limitV s
  by_cases habove : fLt s.opr.a2 mag = true
  · rw [limitVoltage_above (mag := mag) rfl habove, setRes01_eq] at hlimit
    rw [if_pos habove, if_pos habove]
    exact hlimit
  · rw [limitVoltage_within (mag := mag) rfl habove, setRes01_eq] at hlimit
    rw [if_neg habove, if_neg habove]
    exact hlimit

end Sys2Proof.Machine

/-! ## SpaceVectorModulator (43_svpwm R170 to R176)

The row of each sector pair, the two branches of the raw phase values, a duty as its formula, and what SVPWM leaves behind its
gates. -/

namespace Sys2Proof.Machine

open Sys2Proof.Safety

section SpaceVector

variable {N F : Type} {d : NumDomain N F} {svK : N}

/-! ### The rows of the raw phase values (R174) -/

theorem svRaw_s1_or_s4 {sec : Sector} (h : sec = .s1 ∨ sec = .s4) (x y z : N) :
    svRaw d svK (some sec) x y z = (d.mul svK y, d.mul svK (d.add x z), d.mul (d.neg svK) y) := by
  rcases h with rfl | rfl <;> rfl

theorem svRaw_s2_or_s5 {sec : Sector} (h : sec = .s2 ∨ sec = .s5) (x y z : N) :
    svRaw d svK (some sec) x y z = (d.mul svK (d.sub y z), d.mul svK x, d.mul (d.neg svK) x) := by
  rcases h with rfl | rfl <;> rfl

theorem svRaw_s3_or_s6 {sec : Sector} (h : sec = .s3 ∨ sec = .s6) (x y z : N) :
    svRaw d svK (some sec) x y z = (d.mul (d.neg svK) z, d.mul svK z, d.mul (d.neg svK) (d.add x y)) := by
  rcases h with rfl | rfl <;> rfl

theorem svRaw_none (x y z : N) : svRaw d svK none x y z = (d.num0, d.num0, d.num0) := rfl

/-! ### The branches of the raw phase values, on the bus voltage (R170 to R173) -/

variable {va vb vdc : N}

theorem svValues_safeDefault (h : d.le vdc d.num0 = true) : svValues d svK va vb vdc = (d.num0, d.num0, d.num0) :=
  if_pos h

/-- The raw values above a bus voltage of 0, given the normalised vector and the auxiliary values. -/
theorem svValues_normalised {a b y z : N} (h : ¬ d.le vdc d.num0 = true) (ha : d.div va vdc = a) (hb : d.div vb vdc = b)
    (hy : d.div (d.add b (d.mul d.sqrt3 a)) d.num2 = y) (hz : d.div (d.sub b (d.mul d.sqrt3 a)) d.num2 = z) :
    svValues d svK va vb vdc = svRaw d svK (svSector (d.lt d.num0 b) (d.lt d.num0 y) (d.lt d.num0 z)) b y z := by
  subst ha hb hy hz
  exact if_neg h

/-! ### The duties of the raw phase values (R175, R176) -/

theorem svpwm_of_svValues {v : N × N × N} (h : svValues d svK va vb vdc = v) (maxDuty : Nat) :
    svpwm d svK va vb vdc maxDuty = (dutyOf d maxDuty v.1, dutyOf d maxDuty v.2.1, dutyOf d maxDuty v.2.2) := by
  rw [svpwm, h]

end SpaceVector

theorem dutyOf_f32Num (maxDuty : Nat) (value : F32) :
    dutyOf f32Num maxDuty value =
      clampRound (fMul (fDiv (fAdd value 0x3F800000#32) 0x40000000#32) (fOfNat maxDuty)) maxDuty := by
  simp only [dutyOf, f32Num_clampRound, f32Num_mul, f32Num_div, f32Num_add, f32Num_ofNat, f32Num_num1, f32Num_num2]

/-! ### SVPWM behind its gates -/

theorem unitCase_svpwm {s : State} {duty : Nat × Nat × Nat}
    (h : svpwm f32Num s.par.svK s.opr.a0 s.opr.a1 s.opr.a2 s.opr.a3.toNat = duty) :
    unitCase .svpwm
      (fIsFinite s.opr.a0 && fIsFinite s.opr.a1 && fIsFinite s.opr.a2
        && decide (1 ≤ s.opr.a3.toNat ∧ s.opr.a3.toNat < 2 ^ s.par.wDuty)) s
      (setRes012 (u32Word duty.1) (u32Word duty.2.1) (u32Word duty.2.2) s) := by
  subst h
  exact unitCase_of_exec
    (body := fun u =>
      let duty := svpwm f32Num u.par.svK u.opr.a0 u.opr.a1 u.opr.a2 u.opr.a3.toNat
      setRes012 (u32Word duty.1) (u32Word duty.2.1) (u32Word duty.2.2) u) rfl

/-! ### The obligations -/

/-- Settles O23: the sectors are read off the table of sign patterns, and each sector has the row of its pair. -/
theorem sectorAndRawValueTables : Obligations.SectorAndRawValueTables := by
  refine ⟨rfl, rfl, rfl, rfl, rfl, rfl, rfl, rfl, ?rows⟩
  intro k x y z v14 v25 v36
  exact ⟨svRaw_s1_or_s4 (.inl rfl) x y z, svRaw_s1_or_s4 (.inr rfl) x y z,
    svRaw_s2_or_s5 (.inl rfl) x y z, svRaw_s2_or_s5 (.inr rfl) x y z,
    svRaw_s3_or_s6 (.inl rfl) x y z, svRaw_s3_or_s6 (.inr rfl) x y z, svRaw_none x y z⟩

/-- Settles O24: the bus voltage tells the two branches of the raw values apart, and SVPWM writes their duties. -/
theorem svpwmGivesItsDuties : Obligations.SvpwmGivesItsDuties := by
  intro s max a b y z v duty
  have hv : svValues f32Num s.par.svK s.opr.a0 s.opr.a1 s.opr.a2 = v := by
    by_cases hvdc : fLe s.opr.a2 0#32 = true
    · exact (svValues_safeDefault hvdc).trans (if_pos hvdc).symm
    · exact (svValues_normalised (a := a) (b := b) (y := y) (z := z) hvdc rfl rfl rfl rfl).trans (if_neg hvdc).symm
  have hsvpwm := unitCase_svpwm (svpwm_of_svValues hv s.opr.a3.toNat)
  rw [setRes012_eq, dutyOf_f32Num, dutyOf_f32Num, dutyOf_f32Num] at hsvpwm
  exact hsvpwm

end Sys2Proof.Machine

/-! ## SpeedController (44_pi R190 to R194)

The two branches of `PiUpdate`, told apart by the anti-windup test, and what each operation leaves behind its gates. -/

namespace Sys2Proof.Machine

open Sys2Proof.Safety

/-! ### The branches of `PiUpdate`, on the anti-windup test of the previous output (R190) -/

section SpeedPi

variable {N F : Type} {d : NumDomain N F} {p : Pi N} {setpoint measured dt error : N}

theorem piInside_iff :
    piInside d p = true ↔ d.lt p.outMin p.lastOutput = true ∧ d.lt p.lastOutput p.outMax = true :=
  Bool.and_eq_true_iff

/-- Strictly inside the limits the integral takes `error·dt`, and the output is formed from the new integral. -/
theorem piUpdate_inside {integral : N} (hin : piInside d p = true) (herror : d.sub setpoint measured = error)
    (hintegral : d.add p.integral (d.mul error dt) = integral) :
    piUpdate d setpoint measured dt p =
      { p with
        integral := integral
        lastOutput := d.clamp (d.add (d.mul p.kp error) (d.mul p.ki integral)) p.outMin p.outMax } := by
  subst herror hintegral
  simp only [piUpdate, if_pos hin]

/-- At or beyond a limit the integral is held. -/
theorem piUpdate_outside (hout : ¬ piInside d p = true) (herror : d.sub setpoint measured = error) :
    piUpdate d setpoint measured dt p =
      { p with
        lastOutput := d.clamp (d.add (d.mul p.kp error) (d.mul p.ki p.integral)) p.outMin p.outMax } := by
  subst herror
  simp only [piUpdate, if_neg hout]

end SpeedPi

/-! ### PI_UPDATE behind its gates -/

theorem unitCase_piUpdate {s : State} {p : Pi} (h : piUpdate f32Num s.opr.a0 s.opr.a1 s.opr.a2 s.pi = p) :
    unitCase .piUpdate (fIsFinite s.opr.a0 && fIsFinite s.opr.a1 && fIsFinite s.opr.a2) s
      (setRes0 p.lastOutput (s.withPi p)) := by
  subst h
  exact unitCase_of_exec
    (body := fun u =>
      let p := piUpdate f32Num u.opr.a0 u.opr.a1 u.opr.a2 u.pi
      setRes0 p.lastOutput (u.withPi p)) rfl

/-! ### The obligations -/

/-- Settles O27: the anti-windup test tells the two branches of `PiUpdate` apart, and PI_UPDATE writes the output of the one
taken. -/
theorem piUpdateFormsOutput : Obligations.PiUpdateFormsOutput := by
  intro s error integral output
  have hupdate : piUpdate f32Num s.opr.a0 s.opr.a1 s.opr.a2 s.pi =
      { s.pi with integral := integral, lastOutput := output } := by
    by_cases hin : piInside f32Num s.pi = true
    · have hadds : fAdd s.pi.integral (fMul error s.opr.a2) = integral := (if_pos (piInside_iff.mp hin)).symm
      exact piUpdate_inside hin rfl hadds
    · have hholds : s.pi.integral = integral := (if_neg (mt piInside_iff.mpr hin)).symm
      rw [piUpdate_outside (error := error) hin rfl, hholds]
      rfl
  exact unitCase_piUpdate hupdate

/-- Settles O28: each clause is the operation's body behind its gates. -/
theorem piSettingsAreApplied : Obligations.PiSettingsAreApplied := by
  intro s
  refine ⟨?reset, ?gains, ?limits, ?symmetric⟩
  case reset => exact unitRun_of_exec (body := fun u => u.withPi (piReset f32Num u.pi)) rfl
  case gains => exact unitCase_of_exec (body := fun u => u.withPi (piSetGains u.opr.a0 u.opr.a1 u.pi)) rfl
  case limits => exact unitCase_of_exec (body := fun u => u.withPi (piSetLimits u.opr.a0 u.opr.a1 u.pi)) rfl
  case symmetric =>
    exact unitCase_of_exec (body := fun u => u.withPi (piSetLimits (fNeg u.opr.a0) u.opr.a0 u.pi)) rfl

end Sys2Proof.Machine

/-! ## OpenLoopStarter (45_openloop R210 to R217)

The start of the ramp as its formulas, the two branches of `OlUpdate`, told apart by the strict comparison with the period, and what
each operation leaves behind its gates. -/

namespace Sys2Proof.Machine

open Sys2Proof.Safety

/-! ### The start of the ramp under NUM = F32 (R210 to R212) -/

theorem stepPeriod_f32Num (cfg : Cfg) (x : F32) :
    stepPeriod f32Num cfg x = fDiv 0x42700000#32 (fMul x (fOfNat (6 * cfg.polePairs))) := by
  simp only [stepPeriod, n6, f32Num_div, f32Num_mul, f32Num_ofNat, f32Num_num60]

theorem decayFactor_of_stepPeriod {cfg : Cfg} {initRpm accel period : F32} (h : stepPeriod f32Num cfg initRpm = period) :
    decayFactor f32Num cfg initRpm accel = fDiv initRpm (fAdd initRpm (fMul accel period)) := by
  simp only [decayFactor, h, f32Num_div, f32Num_add, f32Num_mul]

/-- What the start of the ramp leaves, given the step periods of its two speeds. -/
theorem olStart_of_stepPeriod {cfg : Cfg} {initRpm targetRpm accel duty period minPeriod : F32}
    (hperiod : stepPeriod f32Num cfg initRpm = period) (hmin : stepPeriod f32Num cfg targetRpm = minPeriod) :
    olStart f32Num cfg initRpm targetRpm accel duty =
      { initRpm := initRpm, targetRpm := targetRpm, accel := accel, duty := duty, step := 0, elapsed := 0#32
        period := period, minPeriod := minPeriod, k := fDiv initRpm (fAdd initRpm (fMul accel period)) } := by
  rw [olStart, hperiod, hmin, decayFactor_of_stepPeriod hperiod, f32Num_num0]

theorem olParamsOk_f32Num (initRpm targetRpm accel duty : F32) :
    olParamsOk f32Num initRpm targetRpm accel duty =
      (fLt 0#32 initRpm && fLt 0#32 targetRpm && fLe 0#32 accel && fLe 0#32 duty && fLe duty 0x3F800000#32) := by
  simp only [olParamsOk, between, f32Num_lt, f32Num_le, f32Num_num0, f32Num_num1, Bool.and_assoc]

/-! ### The branches of `OlUpdate`, on the time since the last step (R214) -/

section OlUpdate

variable {N F : Type} {d : NumDomain N F} {ol : Ol N} {dt elapsed : N}

/-- Beyond the period one step is taken and the time starts over, whatever is left of it. -/
theorem olUpdate_step (helapsed : d.add ol.elapsed dt = elapsed) (h : d.lt ol.period elapsed = true) :
    olUpdate d dt ol = { ol with step := ol.step + 1, elapsed := d.num0, period := shrinkPeriod d ol } := by
  subst helapsed
  exact if_pos h

/-- Up to and at the period only the time is kept. -/
theorem olUpdate_noStep (helapsed : d.add ol.elapsed dt = elapsed) (h : ¬ d.lt ol.period elapsed = true) :
    olUpdate d dt ol = { ol with elapsed := elapsed } := by
  subst helapsed
  exact if_neg h

end OlUpdate

theorem shrinkPeriod_f32Num (ol : Ol) :
    shrinkPeriod f32Num ol =
      if fLt ol.minPeriod ol.period then fMax (fMul ol.period ol.k) ol.minPeriod else ol.period := rfl

/-! ### The pattern table (R217) -/

theorem highDuty_f32Num (cfg : Cfg) (ol : Ol) :
    highDuty f32Num cfg ol = clampRound (fMul ol.duty (fOfNat cfg.maxDuty)) cfg.maxDuty := by
  simp only [highDuty, f32Num_clampRound, f32Num_mul, f32Num_ofNat]

/-- The phase-enable field stands in the low bits of the 16 above the W duty. -/
theorem phaseEn_setWidth (phases : BitVec 3) : phases.setWidth 16 = 0#13 ++ phases := by
  rw [BitVec.setWidth_eq_append (by decide), BitVec.cast_eq]

/-! ### A flag as a result register's word (R215) -/

theorem ofBool_setWidth (b : Bool) : (BitVec.ofBool b).setWidth 32 = if b then 1#32 else 0#32 := by
  cases b <;> rfl

/-! ### The operations behind their gates -/

theorem unitCase_olInit {s : State} {ol : Ol} (h : olStart f32Num s.cfg s.opr.a0 s.opr.a1 s.opr.a2 s.opr.a3 = ol) :
    unitCase .olInit
      (fIsFinite s.opr.a0 && fIsFinite s.opr.a1 && fIsFinite s.opr.a2 && fIsFinite s.opr.a3
        && olParamsOk f32Num s.opr.a0 s.opr.a1 s.opr.a2 s.opr.a3) s (s.withOl ol) := by
  subst h
  exact unitCase_of_exec
    (body := fun u => u.withOl (olStart f32Num u.cfg u.opr.a0 u.opr.a1 u.opr.a2 u.opr.a3)) rfl

theorem unitRun_olReset {s : State} {ol : Ol}
    (h : olStart f32Num s.cfg s.ol.initRpm s.ol.targetRpm s.ol.accel s.ol.duty = ol) :
    unitRun .olReset s (s.withOl ol) := by
  subst h
  exact unitRun_of_exec (body := fun u => u.withOl (olRestart f32Num u.cfg u.ol)) rfl

/-- OL_UPDATE writes the ramp it reaches, and that ramp's step and pattern as results. -/
theorem unitCase_olUpdate {s : State} {ol : Ol} {p : Pwm} (hol : olUpdate f32Num s.opr.a0 s.ol = ol)
    (hp : olPattern f32Num s.cfg ol = p) :
    unitCase .olUpdate (fIsFinite s.opr.a0 && fLe 0#32 s.opr.a0) s
      (setRes012 (u32Word ol.step.val) (dutyField p.dutyV ++ dutyField p.dutyU) (0#13 ++ p.phaseEn ++ dutyField p.dutyW)
        (s.withOl ol)) := by
  subst hol hp
  rw [← fIsFinite_and_not_fLt s.opr.a0 0#32 (by decide), ← phaseEn_setWidth]
  exact unitCase_of_exec
    (body := fun u =>
      let ol := olUpdate f32Num u.opr.a0 u.ol
      let p := olPattern f32Num u.cfg ol
      setRes012 (u32Word ol.step.val) (dutyField p.dutyV ++ dutyField p.dutyU) (p.phaseEn.setWidth 16 ++ dutyField p.dutyW)
        (u.withOl ol)) rfl

theorem unitRun_olReached (s : State) :
    unitRun .olReached s (setRes0 ((BitVec.ofBool (olReached f32Num s.ol)).setWidth 32) s) :=
  unitRun_of_exec (body := fun u => setRes0 ((BitVec.ofBool (olReached f32Num u.ol)).setWidth 32) u) rfl

theorem unitRun_olRpm (s : State) : unitRun .olRpm s (setRes0 (stepPeriod f32Num s.cfg s.ol.period) s) :=
  unitRun_of_exec (body := fun u => setRes0 (olRpm f32Num u.cfg u.ol) u) rfl

/-! ### The obligations -/

/-- Settles O31: both operations start the ramp, OL_INIT with its operands and OL_RESET with the stored parameters. -/
theorem olInitAndResetRestartTheRamp : Obligations.OlInitAndResetRestartTheRamp := by
  intro s n6 T start
  have hT (rpm : F32) : stepPeriod f32Num s.cfg rpm = T rpm := stepPeriod_f32Num s.cfg rpm
  constructor
  · have hinit := unitCase_olInit (olStart_of_stepPeriod (hT s.opr.a0) (hT s.opr.a1))
    simp only [olParamsOk_f32Num, ← Bool.and_assoc] at hinit
    exact hinit
  · exact unitRun_olReset (olStart_of_stepPeriod (hT s.ol.initRpm) (hT s.ol.targetRpm))

/-- Settles O32: the strict comparison with the period tells the two branches of `OlUpdate` apart, and the results show the row of
the step reached. -/
theorem olUpdateStepsOncePerPeriod : Obligations.OlUpdateStepsOncePerPeriod := by
  intro s elapsed ol dh row
  have hol : olUpdate f32Num s.opr.a0 s.ol = ol := by
    by_cases hstep : fLt s.ol.period elapsed = true
    · rw [olUpdate_step (elapsed := elapsed) rfl hstep, shrinkPeriod_f32Num]
      exact (if_pos hstep).symm
    · exact (olUpdate_noStep (elapsed := elapsed) rfl hstep).trans (if_neg hstep).symm
  have hpattern : olPattern f32Num s.cfg ol = ⟨true, row.1, row.2.1, row.2.2.1, row.2.2.2⟩ := by
    have hdh : highDuty f32Num s.cfg ol = dh := highDuty_f32Num s.cfg ol
    rw [olPattern, hdh]
    simp only [row]
    -- The six steps are the six rows of the table.
    generalize ol.step = step
    fin_cases step <;> rfl
  have hupdate := unitCase_olUpdate hol hpattern
  rw [setRes012_eq] at hupdate
  exact ⟨hpattern, hupdate⟩

/-- Settles O33: each operation writes to RES0 what it derives from the step period. -/
theorem olReadoutsFollowThePeriod : Obligations.OlReadoutsFollowThePeriod := by
  intro s
  constructor
  · have hreached := unitRun_olReached s
    rw [ofBool_setWidth, setRes0_eq] at hreached
    exact hreached
  · have hrpm := unitRun_olRpm s
    rw [stepPeriod_f32Num, setRes0_eq] at hrpm
    exact hrpm

end Sys2Proof.Machine

/-! ## The unit operations (30_encoding R95)

All that an operation of the test port can do, said once. -/

namespace Sys2Proof.Machine

/-- What the body of a unit operation leaves unchanged: all but the units' own records, the ramp and the result registers. -/
structure UnitFrame (s t : State) : Prop where
  par : t.par = s.par
  cfg : t.cfg = s.cfg
  cap : t.cap = s.cap
  co : t.co = s.co
  pwm : t.pwm = s.pwm
  hreg : t.hreg = s.hreg
  env : t.env = s.env

section UnitOperation

variable {body : State → State} {s t : State}

theorem unitOp_frame_cases (ht : unitOp body s = .next t) (hbody : UnitFrame s (body s)) :
    UnitFrame s t ∨ t = raiseFault .illegalOp s ∨ t = raiseFault .badValue s := by
  rcases unitOp_cases ht with ⟨-, rfl⟩ | ⟨-, rfl⟩
  · exact .inl hbody
  · exact .inr (.inl rfl)

theorem unitOp_checked_frame_cases {ok : Bool} (ht : unitOp (checked ok body) s = .next t)
    (hbody : UnitFrame s (body s)) : UnitFrame s t ∨ t = raiseFault .illegalOp s ∨ t = raiseFault .badValue s := by
  rcases unitOp_cases ht with ⟨-, rfl⟩ | ⟨-, rfl⟩
  · rcases checked_cases ok body s with ⟨-, hrun⟩ | ⟨-, hbad⟩
    · exact .inl (hrun ▸ hbody)
    · exact .inr (.inr hbad)
  · exact .inr (.inl rfl)

end UnitOperation

/-- A unit operation keeps what `UnitFrame` names, or raises a fault and does nothing else. -/
theorem exec_unit_cases {i : Instr} {s t : State} (hunit : i.testPortOnly = true) (ht : exec i s = .next t) :
    UnitFrame s t ∨ t = raiseFault .illegalOp s ∨ t = raiseFault .badValue s := by
  cases i with
  | nop | hallIn | ovfTick | clkAdv | ctrlTick | regRead | regWrite | reset => cases hunit
  -- Without a value check.
  | estUpdate | estReset | piReset | olReset | olReached | olRpm =>
    simp only [exec, execEstUpdate, opEstUpdate, execEstReset, opEstReset, execPiReset, opPiReset, execOlReset, opOlReset,
      execOlReached, opOlReached, execOlRpm, opOlRpm] at ht
    exact unitOp_frame_cases ht ⟨rfl, rfl, rfl, rfl, rfl, rfl, rfl⟩
  -- Behind one.
  | estSeedFilter | estSetOffset | invPark | invClarke | limitV | svpwm | piUpdate | piSetGains | piSetLimits | piSetSym
  | olInit | olUpdate | rampUpdate | rampSeed =>
    simp only [exec, execEstSeedFilter, opEstSeedFilter, execEstSetOffset, opEstSetOffset, execInvPark, opInvPark,
      execInvClarke, opInvClarke, execLimitV, opLimitV, execSvpwm, opSvpwm, execPiUpdate, opPiUpdate, execPiSetGains,
      opPiSetGains, execPiSetLimits, opPiSetLimits, execPiSetSym, opPiSetSym, execOlInit, opOlInit, execOlUpdate, opOlUpdate,
      execRampUpdate, opRampUpdate, execRampSeed, opRampSeed] at ht
    exact unitOp_checked_frame_cases ht ⟨rfl, rfl, rfl, rfl, rfl, rfl, rfl⟩

end Sys2Proof.Machine

/-! ## The ramp limiter (46_coordinator R230, R231)

The formula of `RampUpdate`, and what each operation leaves behind its gates. -/

namespace Sys2Proof.Machine

open Sys2Proof.Safety

theorem rampUpdate_f32Num (cfg : Cfg) (target dt rpm : F32) :
    rampUpdate f32Num cfg target dt rpm =
      fAdd rpm (fClamp (fSub target rpm) (fNeg (fMul cfg.rampRate dt)) (fMul cfg.rampRate dt)) := by
  simp only [rampUpdate, f32Num_add, f32Num_clamp, f32Num_sub, f32Num_neg, f32Num_mul]

theorem unitCase_rampUpdate {s : State} {rpm : F32} (h : rampUpdate f32Num s.cfg s.opr.a0 s.opr.a1 s.ramp.rpm = rpm) :
    unitCase .rampUpdate (fIsFinite s.opr.a0 && fIsFinite s.opr.a1 && fLe 0#32 s.opr.a1) s
      (setRes0 rpm (s.withRamp rpm)) := by
  subst h
  rw [Bool.and_assoc, ← fIsFinite_and_not_fLt s.opr.a1 0#32 (by decide), ← Bool.and_assoc]
  exact unitCase_of_exec
    (body := fun u =>
      let r := rampUpdate f32Num u.cfg u.opr.a0 u.opr.a1 u.ramp.rpm
      setRes0 r (u.withRamp r)) rfl

/-- Settles O35: each operation is its body behind its gates, and RAMP_UPDATE's is the stated formula. -/
theorem rampFollowsTargetAtItsRate : Obligations.RampFollowsTargetAtItsRate := by
  intro s slew rpm
  constructor
  · have hupdate := unitCase_rampUpdate (rampUpdate_f32Num s.cfg s.opr.a0 s.opr.a1 s.ramp.rpm)
    rw [setRes0_eq] at hupdate
    exact hupdate
  · exact unitCase_of_exec (body := fun u => u.withRamp u.opr.a0) rfl

end Sys2Proof.Machine

/-! ## The control tick (46_coordinator R232 to R245)

Which branch a tick takes, what each branch leaves as one record update, and the mode after a tick. -/

namespace Sys2Proof.Machine

open Sys2Proof.Safety

/-! ### The two kinds of tick, on the effective enable (R233, R238) -/

section Tick

variable {s : State}

theorem exec_ctrlTick_disabled (h : tickEnabled s = false) :
    exec .ctrlTick s = .next (disabledTick f32Num s.hreg (tickInput f32Num s.env).voltOk (latched s)) :=
  congrArg Host.Outcome.next (if_neg (Bool.eq_false_iff.mp h))

theorem exec_ctrlTick_enabled (h : tickEnabled s = true) :
    exec .ctrlTick s = .next (enabledTick f32Num (tickInput f32Num s.env) (tickSnapshot s) (latched s)) :=
  congrArg Host.Outcome.next (if_pos h)

end Tick

/-! ### The branches of an enabled tick, on the request and the mode (R238, R239) -/

section EnabledTick

variable {N F : Type} {d : NumDomain N F} {inp : TickInput N F} {snap : Snapshot} {s : State N F}

/-- The state once a pending request has been taken. -/
def requestTaken (d : NumDomain N F) (s : State N F) : State N F := if s.co.calReq then calRequest d s else s

theorem requestTaken_none (hreq : s.co.calReq = false) : requestTaken d s = s := if_neg (Bool.eq_false_iff.mp hreq)

/-- A request puts the mode to Calibration from any mode. -/
theorem calRequest_mode (d : NumDomain N F) (s : State N F) : (calRequest d s).co.mode = .calibration := by
  simp only [calRequest, zeroCommand, State.withCo_co, setMode_mode]

theorem requestTaken_mode_calibration (h : s.co.calReq = true ∨ s.co.mode = .calibration) :
    (requestTaken d s).co.mode = .calibration := by
  cases hreq : s.co.calReq
  · rw [requestTaken_none hreq]
    exact h.resolve_left (Bool.eq_false_iff.mp hreq)
  · rw [requestTaken, if_pos hreq, calRequest_mode]

theorem enabledTick_openLoop (hreq : s.co.calReq = false) (hmode : s.co.mode = .openLoop) :
    enabledTick d inp snap s =
      openLoopBranch d s.hreg inp.vDc snap (s.withEst (estUpdate d s.par s.cfg snap s.est)) := by
  simp [enabledTick, hreq, hmode]

theorem enabledTick_closedLoopFoc (hreq : s.co.calReq = false) (hmode : s.co.mode = .closedLoopFoc) :
    enabledTick d inp snap s =
      focBranch d s.hreg inp.vDc snap (s.withEst (estUpdate d s.par s.cfg snap s.est)) := by
  simp [enabledTick, hreq, hmode]

theorem enabledTick_calibrating (h : s.co.calReq = true ∨ s.co.mode = .calibration) :
    enabledTick d inp snap s =
      calBranch d inp.vDc snap inp.cal ((requestTaken d s).withEst
        (estUpdate d (requestTaken d s).par (requestTaken d s).cfg snap (requestTaken d s).est)) := by
  have hmode := requestTaken_mode_calibration (d := d) h
  unfold enabledTick
  rw [← requestTaken]
  simp only [State.withEst_co, hmode]

end EnabledTick

/-! ### The mode after each kind of tick (R232) -/

section ModeAfterTick

variable {s t : State}

theorem mode_of_disabledTick (ht : exec .ctrlTick s = .next t) (hen : tickEnabled s = false) : t.co.mode = .openLoop := by
  rw [exec_ctrlTick_disabled hen] at ht
  cases ht
  exact enterOpenLoop_mode f32Num false _

theorem mode_of_calibratingTick (ht : exec .ctrlTick s = .next t) (hen : tickEnabled s = true) (hcal : calibrating s) :
    t.co.mode =
      match (tickInput f32Num s.env).cal.status with
      | .running => .calibration
      | .succeeded => .closedLoopFoc
      | .failed => .openLoop := by
  have hcal' : (latched s).co.calReq = true ∨ (latched s).co.mode = .calibration := hcal
  rw [exec_ctrlTick_enabled hen, enabledTick_calibrating hcal'] at ht
  cases ht
  refine (calBranch_mode _ _ _ _ _).trans ?_
  cases (tickInput f32Num s.env).cal.status
  case running => exact requestTaken_mode_calibration hcal'
  all_goals rfl

theorem mode_of_openLoopTick (ht : exec .ctrlTick s = .next t) (hen : tickEnabled s = true) (hreq : s.co.calReq = false)
    (hmode : s.co.mode = .openLoop) :
    t.co.mode =
      if hallValid (tickSnapshot s).raw (tickSnapshot s).timedOut = true ∧ olReached f32Num s.ol = true then .closedLoopFoc
      else .openLoop := by
  rw [exec_ctrlTick_enabled hen, enabledTick_openLoop (s := latched s) hreq hmode] at ht
  cases ht
  simp only [openLoopBranch_mode, ← hmode, ← Bool.and_eq_true]
  rfl

theorem mode_of_closedLoopTick (ht : exec .ctrlTick s = .next t) (hen : tickEnabled s = true) (hreq : s.co.calReq = false)
    (hmode : s.co.mode = .closedLoopFoc) : t.co.mode = .closedLoopFoc := by
  rw [exec_ctrlTick_enabled hen, enabledTick_closedLoopFoc (s := latched s) hreq hmode] at ht
  cases ht
  rw [focBranch_mode]
  exact hmode

end ModeAfterTick

/-! ### What the branches leave, each as one record update -/

section Branches

variable {N F : Type} {d : NumDomain N F} {h : Hreg N} {vdc : N} {snap : Snapshot} {s : State N F}

/-- `EnterOpenLoop` resets the PI whether or not the mode changes (R234). -/
theorem enterOpenLoop_eq (d : NumDomain N F) (effEn : Bool) (s : State N F) :
    enterOpenLoop d effEn s = { s with
      pi := piReset d s.pi
      est := estReset d s.est
      ol := olRestart d s.cfg s.ol
      ramp := ⟨d.num0⟩
      co := { s.co with mode := .openLoop, vq := d.num0 }
      pwm := if effEn then s.pwm else pwmOffPort } := by
  obtain ⟨p, hp, hset⟩ : ∃ p, piReset d p = piReset d s.pi ∧
      setMode d .openLoop s = (s.withPi p).withCo { s.co with mode := .openLoop } := by
    refine ⟨_, ?_, setMode_eq d .openLoop s⟩
    split <;> rfl
  rw [enterOpenLoop, hset, ← hp]
  cases effEn <;> rfl

/-- The disable action (R235). -/
theorem disabledTick_eq (d : NumDomain N F) (h : Hreg N) (voltOk : Bool) (s : State N F) :
    disabledTick d h voltOk s =
      let u := raiseIf (h.en && !voltOk) .voltInhibit s
      { u with
        pi := piReset d u.pi
        est := estReset d s.est
        ol := olRestart d s.cfg s.ol
        ramp := ⟨d.num0⟩
        co := { u.co with mode := .openLoop, calReq := false, vq := d.num0 }
        pwm := pwmOffPort } := by
  simp only [disabledTick, enterOpenLoop_eq, raiseIf_eq]
  rfl

/-- The safety stop zeroes what R245 names, beside the record of its causes. -/
theorem safetyStop_eq (d : NumDomain N F) (snap : Snapshot) (s : State N F) :
    safetyStop d snap s =
      let u := raiseIf (!rawCodeOk snap.raw) .hallInvalid (raiseIf snap.timedOut .captureTimeout s)
      { u with
        pwm := { s.pwm with dutyU := 0, dutyV := 0, dutyW := 0 }
        pi := piClearIntegral d s.pi
        ramp := ⟨d.num0⟩
        co := { u.co with vq := d.num0 } } := by
  simp only [safetyStop, raiseIf_eq, zeroCommand]
  cases snap.timedOut <;> cases rawCodeOk snap.raw <;> rfl

/-- A handoff comes from another mode, so its change of mode resets the PI (R241, R251). -/
theorem handoff_eq {rpm : N} (hmode : s.co.mode ≠ .closedLoopFoc) (hrpm : olRpm d s.cfg s.ol = rpm) :
    handoff d s = { s with
      est := estSeed rpm s.est
      ramp := ⟨rpm⟩
      pi := piReset d s.pi
      co := { s.co with mode := .closedLoopFoc } } := by
  subst hrpm
  simp only [handoff, setMode_eq, State.withRamp_co, State.withEst_co, hmode, ↓reduceIte]
  rfl

theorem openLoopBranch_handoff (hvalid : s.co.hallValid = true) (hreached : olReached d s.ol = true) :
    openLoopBranch d h vdc snap s = focBranch d h vdc snap (handoff d s) :=
  if_pos (Bool.and_eq_true_iff.mpr ⟨hvalid, hreached⟩)

theorem focBranch_invalid (hinvalid : s.co.hallValid = false) : focBranch d h vdc snap s = safetyStop d snap s :=
  if_neg (Bool.eq_false_iff.mp hinvalid)

/-- The closed loop driven (R242), given the ramp's next value and the PI's command for it. -/
theorem focBranch_valid {rpm : N} {command : Pi N × N} (hvalid : s.co.hallValid = true)
    (hrpm : rampUpdate d s.cfg h.targetRpm s.par.tCtrl s.ramp.rpm = rpm)
    (hcommand : focCommand d s.par s.cfg rpm s.est.speed s.pi = command) :
    focBranch d h vdc snap s =
      drive d vdc d.num0 command.2 s.est.elec
        { s with ramp := ⟨rpm⟩, pi := command.1, co := { s.co with vq := command.2 } } := by
  subst hrpm hcommand
  exact if_pos hvalid

end Branches

/-! ### The formulas of the closed loop under NUM = F32 (R242 to R244) -/

/-- The near-zero rule or `PiUpdate`, and its q command (R242, R243). -/
theorem focCommand_f32Num {par : Par} {cfg : Cfg} {ramp meas vq : F32} {p q : Pi} {near : Bool}
    (hnear : (fLt (fAbs ramp) cfg.zeroEpsRpm && fLt (fAbs meas) cfg.zeroEpsRpm) = near)
    (hq : (if near then piReset f32Num p else piUpdate f32Num ramp meas par.tCtrl p) = q)
    (hvq : (if near then 0#32 else q.lastOutput) = vq) :
    focCommand f32Num par cfg ramp meas p = (q, vq) := by
  have hnear' : nearZero f32Num cfg ramp meas = near := by
    rw [nearZero, f32Num_lt, f32Num_abs, f32Num_lt, f32Num_abs, hnear]
  subst hq hvq
  cases near <;> simp [focCommand, hnear']

/-- The voltage pipeline reads only parameters and configuration, so it gives what it would in a state before the tick. -/
theorem drive_f32Num {b s : State} (vdc vd vq theta : F32) (hpar : b.par = s.par) (hcfg : b.cfg = s.cfg) :
    drive f32Num vdc vd vq theta b = { b with pwm := driven s vdc vd vq theta } := by
  rw [driven, ← hpar, ← hcfg]
  rfl

/-! ### Faults by their codes (60_exceptions R281) -/

theorem raiseFault_eq_recorded (c : Cause) (s : State) : raiseFault c s = recorded (causeCode c).toNat s := by
  cases c <;> rfl

theorem raiseIf_eq_recorded (b : Bool) (c : Cause) (s : State) :
    raiseIf b c s = if b then recorded (causeCode c).toNat s else s := by
  rw [raiseIf, raiseFault_eq_recorded]

theorem raiseIf_withEst (b : Bool) (c : Cause) (s : State) (e : Est) :
    raiseIf b c (s.withEst e) = (raiseIf b c s).withEst e := by
  cases b <;> rfl

/-! ### The snapshot's validity (40_capture R114) -/

theorem hallValid_eq_false {raw : HallCode} {timedOut : Bool} (h : timedOut = true ∨ raw = 0#3 ∨ raw = 7#3) :
    hallValid raw timedOut = false := by
  rcases h with h | h | h <;> simp [hallValid, h]

theorem not_rawCodeOk_iff {raw : HallCode} : (!rawCodeOk raw) = true ↔ raw = 0#3 ∨ raw = 7#3 := by
  simp [rawCodeOk, or_iff_not_imp_left]

/-! ### The writers of the mode (R232) -/

section KeepsMode

variable {N F : Type}

theorem regRead_mode (d : NumDomain N F) (idx : BitVec 8) (s : State N F) : (regRead d idx s).co.mode = s.co.mode := by
  rw [regRead, raiseIf_eq]
  cases reservedIndex d s idx <;> rfl

theorem writeCtrl_mode (data : Word) (s : State N F) : (writeCtrl data s).co.mode = s.co.mode := by
  unfold writeCtrl
  dsimp only
  split <;> rfl

theorem checked_mode {ok : Bool} {body : State N F → State N F} {s : State N F} (hbody : (body s).co.mode = s.co.mode) :
    (checked ok body s).co.mode = s.co.mode := by
  rcases checked_cases ok body s with ⟨-, hrun⟩ | ⟨-, hbad⟩
  · rw [hrun, hbody]
  · rw [hbad, raiseFault_co, coRaise_mode]

/-- A write stores in HREG, OPR, the request or the fault record, or raises: no register takes the mode. -/
theorem regWrite_mode (d : NumDomain N F) (idx : BitVec 8) (data : Word) (s : State N F) :
    (regWrite d idx data s).co.mode = s.co.mode := by
  unfold regWrite
  split
  case h_1 => exact writeCtrl_mode data s
  case h_2 | h_3 | h_4 | h_5 => exact checked_mode rfl
  all_goals rfl

end KeepsMode

theorem exec_mode {i : Instr} {s t : State} (ht : exec i s = .next t) (htick : i ≠ .ctrlTick) (hreset : i ≠ .reset) :
    t.co.mode = s.co.mode := by
  cases hunit : i.testPortOnly
  case true =>
    rcases exec_unit_cases hunit ht with hframe | rfl | rfl
    · rw [hframe.co]
    · rfl
    · rfl
  case false =>
    cases i with
    | ctrlTick => exact absurd rfl htick
    | reset => exact absurd rfl hreset
    | nop | hallIn | ovfTick | clkAdv => cases ht; rfl
    | regRead idx => cases ht; exact regRead_mode f32Num idx s
    | regWrite idx data => cases ht; exact regWrite_mode f32Num idx data s
    | _ => cases hunit

/-! ### The obligations -/

/-- Settles O44: no operation but the two writes the mode, and after each kind of tick it is the one the graph's edges give. -/
theorem modeFollowsTransitionGraph : Obligations.ModeFollowsTransitionGraph := by
  constructor
  case left =>
    intro i s t ht hchange
    by_contra hother
    obtain ⟨htick, hreset⟩ := not_or.mp hother
    exact hchange (exec_mode ht htick hreset)
  case right =>
    intro s t ht en inCal status ready
    by_cases hen : en
    case neg => simp [hen, mode_of_disabledTick ht (Bool.eq_false_iff.mpr hen)]
    by_cases hcal : inCal
    case pos =>
      have hmode := mode_of_calibratingTick ht hen hcal
      cases hstatus : status <;> simp [hmode, hen, hcal, show (tickInput f32Num s.env).cal.status = _ from hstatus]
    obtain ⟨hreq, hnoSession⟩ := not_or.mp hcal
    rw [Bool.not_eq_true] at hreq
    cases hmode : s.co.mode with
    | calibration => exact absurd hmode hnoSession
    | closedLoopFoc => simp [hen, hcal, mode_of_closedLoopTick ht hen hreq hmode]
    | openLoop =>
      have hedge : t.co.mode = if ready then .closedLoopFoc else .openLoop := mode_of_openLoopTick ht hen hreq hmode
      by_cases hready : ready <;> simp [hedge, hen, hcal, hready]

/-- Settles O36: with EN set a disabled tick is inhibited by volt_ok, and the disable action follows. -/
theorem disabledTickShutsDown : Obligations.DisabledTickShutsDown := by
  intro s hdisabled b
  have hb : raiseIf (s.hreg.en && !(tickInput f32Num s.env).voltOk) .voltInhibit (latched s) = b := by
    rw [raiseIf_eq_recorded]
    cases hen : s.hreg.en
    · simp [b, hen]
    · have hvolt : (tickInput f32Num s.env).voltOk = false := by simpa [tickEnabled, hen] using hdisabled
      simp [b, hen, hvolt, causeCode]
  rw [exec_ctrlTick_disabled hdisabled, disabledTick_eq, hb]
  rfl

/-- Settles O39: the tick is the closed loop run from the state the handoff leaves. -/
theorem handoffSeedsAndDrives : Obligations.HandoffSeedsAndDrives := by
  rintro s ⟨hen, hmode, hreq, hvalid, hreached⟩ b r e slew rpm near p0 p vq
  let u := handoff f32Num (b.withEst (estUpdate f32Num s.par s.cfg (tickSnapshot s) s.est))
  have hu : u = { b with est := e, ramp := ⟨r⟩, pi := p0, co := { b.co with mode := .closedLoopFoc } } :=
    handoff_eq (rpm := r) (by simp [b, latched, hmode]) (stepPeriod_f32Num s.cfg s.ol.period)
  have hcommand : focCommand f32Num s.par s.cfg rpm r p0 = (p, vq) := focCommand_f32Num (near := near) rfl rfl rfl
  have htick : exec .ctrlTick s = .next (focBranch f32Num s.hreg (tickInput f32Num s.env).vDc (tickSnapshot s) u) := by
    rw [exec_ctrlTick_enabled hen, enabledTick_openLoop (s := latched s) hreq hmode]
    exact congrArg Host.Outcome.next (openLoopBranch_handoff hvalid hreached)
  rw [htick, hu, focBranch_valid hvalid (rampUpdate_f32Num s.cfg s.hreg.targetRpm s.par.tCtrl r) hcommand,
    drive_f32Num (s := s)] <;> rfl

/-- Settles O40: an invalid snapshot takes the closed loop to the safety stop, whose causes are recorded in order. -/
theorem safetyStopZeroesDuties : Obligations.SafetyStopZeroesDuties := by
  intro s hen hmode hreq sn badCode hcause b b1 b2
  let e := estUpdate f32Num s.par s.cfg sn s.est
  have hb1 : raiseIf sn.timedOut .captureTimeout b = b1 := raiseIf_eq_recorded _ _ _
  have hb2 : raiseIf (!rawCodeOk sn.raw) .hallInvalid b1 = b2 :=
    (raiseIf_eq_recorded _ _ _).trans (if_congr not_rawCodeOk_iff rfl rfl)
  have htick : exec .ctrlTick s = .next (safetyStop f32Num sn (b.withEst e)) := by
    rw [exec_ctrlTick_enabled hen, enabledTick_closedLoopFoc (s := latched s) hreq hmode]
    exact congrArg Host.Outcome.next (focBranch_invalid (hallValid_eq_false hcause))
  rw [htick, safetyStop_eq, raiseIf_withEst, raiseIf_withEst, hb1, hb2]
  rfl

end Sys2Proof.Machine

/-! ## REG_WRITE (46_coordinator R253)

What a write does at each index of the register map. -/

namespace Sys2Proof.Machine

open Sys2Proof.Safety

theorem exec_regWrite (idx : BitVec 8) (data : Word) (s : State) :
    exec (.regWrite idx data) s = .next (regWrite f32Num idx data s) := rfl

section RegWrite

variable {N F : Type} {d : NumDomain N F}

/-- ESTOP wins over EN, and a request latches the torque in the same write (10_state R34). -/
theorem writeCtrl_eq (data : Word) (s : State N F) :
    writeCtrl data s = { s with
      hreg := { s.hreg with en := if data.getLsbD 2 then false else data.getLsbD 0 }
      co := if data.getLsbD 1 then { s.co with calReq := true, calTorqueReq := s.hreg.calTorque } else s.co } := by
  unfold writeCtrl
  cases data.getLsbD 2 <;> cases data.getLsbD 1 <;> simp <;> rfl

/-- A bit of FAULT is cleared exactly where a 1 is written (60_exceptions R284). -/
theorem writeFault_fault_getLsbD (data : Word) (s : State N F) (c : Nat) :
    (writeFault data s).co.fault.getLsbD c = (s.co.fault.getLsbD c && !data.getLsbD c) := by
  rw [writeFault, State.withCo_co]
  by_cases hc : c < 16
  · simp [hc]
  · simp [BitVec.getLsbD_of_ge _ c (Nat.le_of_not_lt hc)]

/-- A write of a real-valued register of a value that is not finite. -/
theorem regWrite_notFinite {idx : BitVec 8} (hidx : idx ∈ ([0x01, 0x02, 0x03, 0x04] : List (BitVec 8))) {data : Word}
    (h : fIsFinite data = false) (s : State N F) : regWrite d idx data s = raiseFault .badValue s := by
  simp only [List.mem_cons, List.not_mem_nil, or_false] at hidx
  rcases hidx with rfl | rfl | rfl | rfl <;> simp [regWrite, h, checked_bad]

/-- The indices that are read-only or reserved (10_state R54). -/
theorem regWrite_notWritable {idx : BitVec 8}
    (hidx : idx ∉ ([0x00, 0x01, 0x02, 0x03, 0x04, 0x08, 0x09, 0x0A, 0x0B, 0x18] : List (BitVec 8))) (data : Word)
    (s : State N F) : regWrite d idx data s = raiseFault .illegalAccess s := by
  unfold regWrite
  split
  case h_11 => rfl
  all_goals exact absurd (by decide) hidx

end RegWrite

/-- The clamp of a number has no case of its own (log 4). -/
theorem fClamp_of_fIsFinite {v : F32} (h : fIsFinite v = true) (lo hi : F32) : fClamp v lo hi = fMin (fMax v lo) hi := by
  simp [fClamp, fIsNaN_of_fIsFinite h]

theorem raiseFault_illegalAccess (s : State) : raiseFault .illegalAccess s = recorded 5 s :=
  raiseFault_eq_recorded .illegalAccess s

/-- Settles O50: the arms of a write by index, with the value check of the real-valued registers. -/
theorem regWriteActsByIndex : Obligations.RegWriteActsByIndex := by
  intro data s
  refine ⟨?ctrl, ?finite, ?notFinite, rfl, rfl, rfl, rfl, ?fault, ?other⟩
  case ctrl => exact congrArg Host.Outcome.next (writeCtrl_eq data s)
  case finite =>
    intro h
    simp only [exec_regWrite, regWrite, h, checked_ok, f32Num_ofBits, f32Num_clamp, f32Num_torqueMin, f32Num_torqueMax,
      fClamp_of_fIsFinite h]
    exact ⟨rfl, rfl, rfl, rfl⟩
  case notFinite =>
    intro h idx hidx
    rw [exec_regWrite, regWrite_notFinite hidx h, raiseFault_badValue]
  case fault => exact ⟨_, rfl, writeFault_fault_getLsbD data s⟩
  case other =>
    intro idx hidx
    rw [exec_regWrite, regWrite_notWritable hidx, raiseFault_illegalAccess]

end Sys2Proof.Machine

/-! ## Faults and refused operands (60_exceptions R281 to R284, R298)

What each operation does to the sticky record, and that a unit operation with a bad operand fails its value check. -/

namespace Sys2Proof.Machine

open Sys2Proof.Safety

/-! ### The sticky record over every operation (R283, R284) -/

section KeepsFaults

variable {N F : Type}

/-- Every sticky bit that is set in `s` is set in `t`. -/
def KeepsFaults (s t : State N F) : Prop := ∀ c, s.co.fault.getLsbD c = true → t.co.fault.getLsbD c = true

theorem KeepsFaults.of_co_fault_eq {s t : State N F} (h : t.co.fault = s.co.fault) : KeepsFaults s t :=
  fun c hc => by rw [h, hc]

theorem raiseFault_keepsFaults (c : Cause) (s : State N F) : KeepsFaults s (raiseFault c s) :=
  (raiseFault_tickFrame c s).fault

theorem regRead_keepsFaults (d : NumDomain N F) (idx : BitVec 8) (s : State N F) : KeepsFaults s (regRead d idx s) :=
  (raiseIf_tickFrame _ .illegalAccess (returnValue (readWord d s idx) s)).fault

theorem writeCtrl_keepsFaults (data : Word) (s : State N F) : KeepsFaults s (writeCtrl data s) := by
  refine .of_co_fault_eq ?_
  rw [writeCtrl_eq]
  dsimp only
  split <;> rfl

theorem checked_keepsFaults {ok : Bool} {body : State N F → State N F} {s : State N F} (hbody : KeepsFaults s (body s)) :
    KeepsFaults s (checked ok body s) := by
  rcases checked_cases ok body s with ⟨-, hrun⟩ | ⟨-, hbad⟩
  · rwa [hrun]
  · rw [hbad]
    exact raiseFault_keepsFaults .badValue s

/-- Of the registers only FAULT takes a write that clears a sticky bit. -/
theorem regWrite_keepsFaults (d : NumDomain N F) {idx : BitVec 8} (hidx : idx ≠ 0x18) (data : Word) (s : State N F) :
    KeepsFaults s (regWrite d idx data s) := by
  unfold regWrite
  split
  case h_1 => exact writeCtrl_keepsFaults data s
  case h_2 | h_3 | h_4 | h_5 => exact checked_keepsFaults (.of_co_fault_eq rfl)
  case h_6 | h_7 | h_8 | h_9 => exact .of_co_fault_eq rfl
  case h_10 => exact absurd rfl hidx
  case h_11 => exact raiseFault_keepsFaults .illegalAccess s

/-- The latch and the snapshot leave the sticky record to the parts of the tick after them. -/
theorem opCtrlTick_keepsFaults {d : NumDomain N F} {s t : State N F} (ht : opCtrlTick d s = .next t) : KeepsFaults s t := by
  cases ht
  exact (ctrlTick_tickFrame d (tickInput d s.env) (s.withEnv (popTick s.env))).fault

theorem opReset_clearsFaults {d : NumDomain N F} {s t : State N F} (ht : opReset d s = .next t) :
    t.co.fault = 0#16 ∧ t.co.lastFault = 0#4 := by
  obtain ⟨legal, rfl⟩ := resetSequence_next ht
  exact ⟨rfl, rfl⟩

end KeepsFaults

theorem exec_keepsFaults {i : Instr} {s t : State} (ht : exec i s = .next t) (hreset : i ≠ .reset)
    (hfault : ∀ data, i ≠ .regWrite 0x18 data) : KeepsFaults s t := by
  cases hunit : i.testPortOnly
  case true =>
    rcases exec_unit_cases hunit ht with hframe | rfl | rfl
    · exact .of_co_fault_eq (congrArg Co.fault hframe.co)
    · exact raiseFault_keepsFaults .illegalOp s
    · exact raiseFault_keepsFaults .badValue s
  case false =>
    cases i with
    | reset => exact absurd rfl hreset
    | nop | hallIn | ovfTick | clkAdv => cases ht; exact .of_co_fault_eq rfl
    | ctrlTick => exact opCtrlTick_keepsFaults ht
    | regRead idx => cases ht; exact regRead_keepsFaults f32Num idx s
    | regWrite idx data =>
      cases ht
      have hidx : idx ≠ 0x18 := fun h => hfault data (h ▸ rfl)
      exact regWrite_keepsFaults f32Num hidx data s
    | _ => cases hunit

/-! ### A failed value check (R298) -/

theorem exec_of_unitCase_bad {i : Instr} {ok : Bool} {s t : State} (hport : s.par.testPortEn = true)
    (hcase : unitCase i ok s t) (hbad : ok = false) : exec i s = .next (recorded 6 s) := by
  obtain ⟨-, hrefuses, -⟩ := hcase
  exact hrefuses hport hbad

/-! ### The obligations -/

/-- Settles O53: a raise is the record of its code; every operation but the two writers keeps the set bits, and the two clear what
they name. -/
theorem faultsAreRecordedAndSticky : Obligations.FaultsAreRecordedAndSticky := by
  refine ⟨?recorded, ?sticky, ?written, ?reset⟩
  case recorded =>
    intro s
    exact ⟨raiseFault_eq_recorded .hallInvalid s, raiseFault_eq_recorded .captureTimeout s,
      raiseFault_eq_recorded .calFailed s, raiseFault_illegalOp s, raiseFault_illegalAccess s, raiseFault_badValue s,
      raiseFault_eq_recorded .voltInhibit s⟩
  case sticky => exact fun _ _ _ ht hreset hfault => exec_keepsFaults ht hreset hfault
  case written => exact fun data s => ⟨_, rfl, writeFault_fault_getLsbD data s⟩
  case reset => exact fun _ _ ht => opReset_clearsFaults ht

/-- Settles O26: a bad operand makes a conjunct of the operation's value check false, a value out of range because the opposite
comparison holds. -/
theorem badOperandsWriteNothing : Obligations.BadOperandsWriteNothing := by
  intro s hport bad o refuses
  obtain ⟨-, hseedFilter, hsetOffset⟩ := estResetSeedAndOffset s
  obtain ⟨-, hsetGains, hsetLimits, hsetSym⟩ := piSettingsAreApplied s
  obtain ⟨hrampUpdate, hrampSeed⟩ := rampFollowsTargetAtItsRate s
  refine ⟨?a0, ?a01, ?a012, ?limitV, ?svpwm, ?piSetLimits, ?piSetSym, ?olInit, ?olUpdate, ?rampUpdate⟩
  case a0 =>
    intro h
    exact ⟨exec_of_unitCase_bad hport hseedFilter h, exec_of_unitCase_bad hport hsetOffset h,
      exec_of_unitCase_bad hport hrampSeed h⟩
  case a01 =>
    intro h
    have hbad : (fIsFinite o.a0 && fIsFinite o.a1) = false := Bool.and_eq_false_iff.mpr h
    exact ⟨exec_of_unitCase_bad hport (unitCase_invClarke s) hbad, exec_of_unitCase_bad hport hsetGains hbad⟩
  case a012 =>
    intro h
    have hbad : (fIsFinite o.a0 && fIsFinite o.a1 && fIsFinite o.a2) = false := by
      simpa only [Bool.and_eq_false_iff, or_assoc] using h
    exact ⟨exec_of_unitCase_bad hport (unitCase_invPark s) hbad,
      exec_of_unitCase_bad hport (unitCase_piUpdate rfl) hbad⟩
  case limitV =>
    intro h
    refine exec_of_unitCase_bad hport (unitCase_limitV s) ?_
    simp only [Bool.and_eq_false_iff, or_assoc]
    exact h.imp_right (.imp_right (.imp_right fLe_eq_false_of_fLt))
  case svpwm =>
    intro h
    refine exec_of_unitCase_bad hport (unitCase_svpwm rfl) ?_
    simp only [Bool.and_eq_false_iff, or_assoc, decide_eq_false_iff_not]
    exact h.imp_right (.imp_right (.imp_right fun hrange ⟨hpos, hlt⟩ =>
      hrange.elim (Nat.ne_of_gt hpos) (Nat.not_le_of_lt hlt)))
  case piSetLimits =>
    intro h
    refine exec_of_unitCase_bad hport hsetLimits ?_
    simp only [Bool.and_eq_false_iff, or_assoc]
    exact h.imp_right (.imp_right fLt_eq_false_of_fLe)
  case piSetSym =>
    intro h
    exact exec_of_unitCase_bad hport hsetSym (Bool.and_eq_false_iff.mpr (h.imp_right fLt_eq_false_of_fLe))
  case olInit =>
    intro h
    refine exec_of_unitCase_bad hport (unitCase_olInit rfl) ?_
    simp only [olParamsOk_f32Num, Bool.and_eq_false_iff, or_assoc]
    exact h.imp_right (.imp_right (.imp_right (.imp_right (.imp fLt_eq_false_of_fLe (.imp fLt_eq_false_of_fLe
      (.imp fLe_eq_false_of_fLt (.imp fLe_eq_false_of_fLt fLe_eq_false_of_fLt)))))))
  case olUpdate =>
    intro h
    exact exec_of_unitCase_bad hport (unitCase_olUpdate rfl rfl)
      (Bool.and_eq_false_iff.mpr (h.imp_right fLe_eq_false_of_fLt))
  case rampUpdate =>
    intro h
    refine exec_of_unitCase_bad hport hrampUpdate ?_
    simp only [Bool.and_eq_false_iff, or_assoc]
    exact h.imp_right (.imp_right fLe_eq_false_of_fLt)

end Sys2Proof.Machine

/-! ## The writers of the PWM port (70_reset_and_hazards R330)

What a register access leaves of the port, and that no operation but CTRL_TICK and RESET writes it. -/

namespace Sys2Proof.Machine

section KeepsPwm

variable {N F : Type}

@[simp] theorem regRead_pwm (d : NumDomain N F) (idx : BitVec 8) (s : State N F) : (regRead d idx s).pwm = s.pwm := by
  rw [regRead, raiseIf_eq]
  rfl

@[simp] theorem writeCtrl_pwm (data : Word) (s : State N F) : (writeCtrl data s).pwm = s.pwm := by
  rw [writeCtrl_eq]

theorem checked_pwm {ok : Bool} {body : State N F → State N F} {s : State N F} (hbody : (body s).pwm = s.pwm) :
    (checked ok body s).pwm = s.pwm := by
  rcases checked_cases ok body s with ⟨-, hrun⟩ | ⟨-, hbad⟩
  · rw [hrun, hbody]
  · rw [hbad, raiseFault_pwm]

/-- The port is readable at STATUS and the duty registers, and those take no write (10_state R41, R46, R47;
46_coordinator R253). -/
@[simp] theorem regWrite_pwm (d : NumDomain N F) (idx : BitVec 8) (data : Word) (s : State N F) :
    (regWrite d idx data s).pwm = s.pwm := by
  unfold regWrite
  split
  case h_1 => exact writeCtrl_pwm data s
  case h_2 | h_3 | h_4 | h_5 => exact checked_pwm rfl
  case h_6 | h_7 | h_8 | h_9 | h_10 => rfl
  case h_11 => exact raiseFault_pwm .illegalAccess s

end KeepsPwm

/-- Settles O54: a unit operation keeps the port in its frame or by its fault, SVPWM and OL_UPDATE included; of the other operations
the capture operations write CAP, and the register accesses keep the port. -/
theorem pwmPortChangesOnlyInTickAndReset : Obligations.PwmPortChangesOnlyInTickAndReset := by
  intro i s t ht htick hreset
  cases hunit : i.testPortOnly
  case true =>
    rcases exec_unit_cases hunit ht with hframe | rfl | rfl
    · exact hframe.pwm
    · exact raiseFault_pwm .illegalOp s
    · exact raiseFault_pwm .badValue s
  case false =>
    cases i with
    | ctrlTick => exact absurd rfl htick
    | reset => exact absurd rfl hreset
    | nop | hallIn | ovfTick | clkAdv => cases ht; rfl
    | regRead idx => cases ht; exact regRead_pwm f32Num idx s
    | regWrite idx data => cases ht; exact regWrite_pwm f32Num idx data s
    | _ => cases hunit

end Sys2Proof.Machine

/-! ## Legal command words (30_encoding R90 to R93, R97)

A command word is its opcode and the bits above it, and those are a format's reserved bits and its operand. So an arm of the
decoder that answers an operation fixes every bit of its word, and the encoding has the shape its arm asks for. -/

namespace Sys2Proof

open Sys2Proof.Laws

/-! ### A command word and its fields -/

theorem word_eq_of_fields {w : Word} {high : BitVec 24} {op : BitVec 8} (hhigh : w.extractLsb' 8 24 = high)
    (hop : wordOpcode w = op) : w = high ++ op := by
  rw [← hhigh, ← hop, wordOpcode, BitVec.extractLsb'_append_extractLsb'_eq_extractLsb' (by decide), BitVec.extractLsb'_eq_self]

/-- Above the opcode format H has its reserved bits and the lines. -/
theorem highBits_formatH (w : Word) : w.extractLsb' 8 24 = w.extractLsb' 11 21 ++ wordLines w := by
  rw [wordLines, BitVec.extractLsb'_append_extractLsb'_eq_extractLsb' (by decide)]

/-- Above the opcode formats I and IW have their reserved bits and the index. -/
theorem highBits_formatI (w : Word) : w.extractLsb' 8 24 = w.extractLsb' 16 16 ++ wordIndex w := by
  rw [wordIndex, BitVec.extractLsb'_append_extractLsb'_eq_extractLsb' (by decide)]

theorem bitVec_append_inj {m n : Nat} {x x' : BitVec m} {y y' : BitVec n} (h : x ++ y = x' ++ y') : x = x' ∧ y = y' := by
  constructor
  · simpa only [BitVec.extractLsb'_append_eq_left] using congrArg (BitVec.extractLsb' n m) h
  · simpa only [BitVec.extractLsb'_append_eq_right] using congrArg (BitVec.extractLsb' 0 n) h

/-! ### The words from which a format answers an operation -/

section FormatInversion

variable {w : Word} {rest rest' : List Word} {j : Instr}

theorem encode_of_decodeN {i : Instr} (h : decodeN w rest i = .instr j rest') (hop : wordOpcode w = opcodeOf i)
    (hoperand : operandBits i = 0#24) (hdata : dataWords i = []) : w :: rest = encode j ++ rest' := by
  unfold decodeN at h
  split at h
  case isFalse => cases h
  case isTrue hzero =>
    cases h
    rw [encode, hoperand, hdata, word_eq_of_fields hzero hop]
    rfl

theorem encode_of_decodeH (h : decodeH w rest .hallIn = .instr j rest') (hop : wordOpcode w = 0x01#8) :
    w :: rest = encode j ++ rest' := by
  unfold decodeH at h
  split at h
  case isFalse => cases h
  case isTrue hzero =>
    cases h
    exact congrArg (· :: _) (word_eq_of_fields ((highBits_formatH w).trans (by rw [hzero]; rfl)) hop)

theorem encode_of_decodeI (h : decodeI w rest .regRead = .instr j rest') (hop : wordOpcode w = 0x71#8) :
    w :: rest = encode j ++ rest' := by
  unfold decodeI at h
  split at h
  case isFalse => cases h
  case isTrue hzero =>
    cases h
    exact congrArg (· :: _) (word_eq_of_fields ((highBits_formatI w).trans (by rw [hzero]; rfl)) hop)

theorem encode_of_decodeIW (h : decodeIW w rest .regWrite = .instr j rest') (hop : wordOpcode w = 0x72#8) :
    w :: rest = encode j ++ rest' := by
  unfold decodeIW at h
  split at h
  case isFalse => cases h
  case isTrue hzero =>
    cases rest with
    | nil => cases h
    | cons data _ =>
      cases h
      exact congrArg (· :: data :: _) (word_eq_of_fields ((highBits_formatI w).trans (by rw [hzero]; rfl)) hop)

end FormatInversion

/-! ### The obligations -/

/-- Settles O1: the command word's low byte selects the arm of its opcode, and the bits above it pass that arm's format. -/
theorem encodedOperationsDecode : Obligations.EncodedOperationsDecode := by
  intro i rest
  have hop : wordOpcode (operandBits i ++ opcodeOf i) = opcodeOf i := wordOpcode_append _ _
  have hhigh := highBits_append (operandBits i) (opcodeOf i)
  rw [encode, List.cons_append, decode]
  generalize operandBits i ++ opcodeOf i = w at hop hhigh
  cases i with
  | hallIn lines =>
    obtain ⟨hzero, hlines⟩ := bitVec_append_inj ((highBits_formatH w).symm.trans hhigh)
    rw [decodeCommand_of_hallIn _ hop, decodeH, if_pos hzero, hlines]
    rfl
  | clkAdv n => simp [decodeCommand, hop, opcodeOf, wordCycles, hhigh, operandBits, dataWords]
  | regRead idx =>
    obtain ⟨hzero, hindex⟩ := bitVec_append_inj ((highBits_formatI w).symm.trans hhigh)
    rw [decodeCommand_of_regRead _ hop, decodeI, if_pos hzero, hindex]
    rfl
  | regWrite idx data =>
    obtain ⟨hzero, hindex⟩ := bitVec_append_inj ((highBits_formatI w).symm.trans hhigh)
    rw [decodeCommand_of_regWrite _ hop]
    exact (if_pos hzero).trans (by rw [hindex]; rfl)
  | _ => simp [decodeCommand, hop, opcodeOf, decodeN, hhigh, operandBits, dataWords]

/-- Settles O2: the arm that answers the operation fixes the opcode, and its format the bits above. -/
theorem decodedWordsAreTheEncoding : Obligations.DecodedWordsAreTheEncoding := by
  intro ws i rest h
  cases ws with
  | nil => cases h
  | cons w ws =>
    rw [decode, decodeCommand] at h
    split at h
    case h_2 hop => exact encode_of_decodeH h hop
    case h_4 hop =>
      cases h
      exact congrArg (· :: _) (word_eq_of_fields rfl hop)
    case h_26 hop => exact encode_of_decodeI h hop
    case h_27 hop => exact encode_of_decodeIW h hop
    case h_29 => cases h
    -- The opcodes of format N.
    all_goals
      next hop => exact encode_of_decodeN h hop rfl rfl

/-- Settles O3: each word is read off the decoder's tables. -/
theorem writtenOutWordsDecode : Obligations.WrittenOutWordsDecode := by
  unfold Obligations.WrittenOutWordsDecode
  decide

end Sys2Proof

/-! ## The branches of the control tick left open (46_coordinator R239 to R249)

A tick that drives the six-step pattern, one of the closed loop with a valid snapshot, and the three answers of the Calibrator in a
session; and what every tick, whichever branch it takes, latches and consumes. -/

namespace Sys2Proof.Machine

open Sys2Proof.Safety

/-! ### The branches as record updates -/

section Branches

variable {N F : Type} {d : NumDomain N F} {h : Hreg N} {vdc : N} {snap : Snapshot} {s : State N F}

/-- Without a handoff the starter advances and the PWM port takes its pattern (R240). -/
theorem openLoopBranch_pattern (hno : s.co.hallValid = false ∨ olReached d s.ol = false) :
    openLoopBranch d h vdc snap s = { s with
      ol := olUpdate d s.par.tCtrl s.ol
      pwm := olPattern d s.cfg (olUpdate d s.par.tCtrl s.ol)
      co := { s.co with vq := d.num0 } } :=
  if_neg (Bool.eq_false_iff.mp (Bool.and_eq_false_iff.mpr hno))

/-- `CalRequest()` (R239): the PI is reset where a session did not go on already. -/
theorem calRequest_eq (d : NumDomain N F) (s : State N F) :
    calRequest d s = { s with
      co := { s.co with calReq := false, mode := .calibration, vq := d.num0 }
      ramp := ⟨d.num0⟩
      pi := if s.co.mode = .calibration then s.pi else piReset d s.pi
      env := { s.env with calTorque := s.co.calTorqueReq } } := by
  simp only [calRequest, setMode_eq]
  rfl

/-- The call of `CalStep`, on record (R246). -/
def calCalled (snap : Snapshot) (s : State N F) : State N F :=
  s.withEnv { s.env with calStepIn := some (calStepArg snap s) }

theorem calBranch_running {a : CalAnswer N F} (hstatus : a.status = .running) :
    calBranch d vdc snap a s = calRunning d vdc a (calCalled snap s) := by
  simp only [calBranch, hstatus, calCalled]

theorem calBranch_succeeded {a : CalAnswer N F} (hstatus : a.status = .succeeded) :
    calBranch d vdc snap a s = calSuccess d vdc (d.ofFinite a.offset) a.dirInv (calCalled snap s) := by
  simp only [calBranch, hstatus, calCalled]

theorem calBranch_failed {a : CalAnswer N F} (hstatus : a.status = .failed) :
    calBranch d vdc snap a s = calFailure d vdc (calCalled snap s) := by
  simp only [calBranch, hstatus, calCalled]

/-- `CalSuccess` (R248) in a session, whose change of mode resets the PI (R251). -/
theorem calSuccess_eq {offset : N} {dirInv : Bool} (hmode : s.co.mode = .calibration) :
    calSuccess d vdc offset dirInv s =
      drive d vdc d.num0 d.num0 (elecAngle d s.cfg s.est.mech (normAngle d offset)) { s with
        est := estSetOffset d s.cfg offset dirInv s.est
        pi := piReset d s.pi
        ramp := ⟨d.num0⟩
        co := { s.co with
          mode := .closedLoopFoc, vq := d.num0, calDone := true, calSuccess := true, calDirInv := dirInv
          calOffset := normAngle d offset } } := by
  simp only [calSuccess, setMode_eq, State.withEst_co, State.withCo_co, hmode, reduceCtorEq, ↓reduceIte]
  rfl

/-- `CalFailure` (R249): the record, then `EnterOpenLoop`, then a zero vector. -/
theorem calFailure_eq (d : NumDomain N F) (vdc : N) (s : State N F) :
    calFailure d vdc s =
      drive d vdc d.num0 d.num0 d.num0 { raiseFault .calFailed s with
        pi := piReset d s.pi
        est := estReset d s.est
        ol := olRestart d s.cfg s.ol
        ramp := ⟨d.num0⟩
        co := { coRaise .calFailed s.co with mode := .openLoop, vq := d.num0, calDone := true, calSuccess := false } } := by
  simp only [calFailure, enterOpenLoop_eq]
  rfl

end Branches

/-! ### A tick of a calibration -/

section Session

variable {s : State}

/-- The state in which the Calibrator is called: a request taken, the estimator run, the call recorded (R239, R246). -/
theorem calSession_eq (s : State) :
    calSession s = calCalled (tickSnapshot s)
      ((requestTaken f32Num (latched s)).withEst (estUpdate f32Num s.par s.cfg (tickSnapshot s) s.est)) := by
  cases hreq : s.co.calReq
  · simp only [requestTaken_none (s := latched s) hreq, calSession, hreq]
    rfl
  · have htaken : requestTaken f32Num (latched s) = calRequest f32Num (latched s) := if_pos hreq
    simp only [htaken, calRequest_eq, calSession, hreq]
    rfl

theorem requestTaken_tickFrame (s : State) : TickFrame s (requestTaken f32Num s) := by
  unfold requestTaken
  split
  · exact calRequest_tickFrame f32Num s
  · exact .refl s

theorem requestTaken_est (s : State) : (requestTaken f32Num s).est = s.est := by
  cases hreq : s.co.calReq
  · rw [requestTaken_none hreq]
  · rw [requestTaken, if_pos hreq, calRequest_eq]

/-- A session goes on from where the Calibrator is called. -/
theorem exec_ctrlTick_calibrating (hen : tickEnabled s = true) (hcal : calibrating s) :
    ∃ u, calCalled (tickSnapshot s) u = calSession s ∧
      exec .ctrlTick s = .next (calBranch f32Num (tickInput f32Num s.env).vDc (tickSnapshot s) (tickInput f32Num s.env).cal u) := by
  have hframe := requestTaken_tickFrame (latched s)
  have hest := requestTaken_est (latched s)
  refine ⟨_, (calSession_eq s).symm, ?_⟩
  rw [exec_ctrlTick_enabled hen, enabledTick_calibrating (s := latched s) hcal, hframe.par, hframe.cfg, hest]
  rfl

theorem calSession_par (s : State) : (calSession s).par = s.par := by
  rw [calSession_eq]
  exact (requestTaken_tickFrame (latched s)).par

theorem calSession_cfg (s : State) : (calSession s).cfg = s.cfg := by
  rw [calSession_eq]
  exact (requestTaken_tickFrame (latched s)).cfg

theorem calSession_ol (s : State) : (calSession s).ol = s.ol := by
  cases hreq : s.co.calReq <;> simp only [calSession, hreq] <;> rfl

theorem calSession_mode (hcal : calibrating s) : (calSession s).co.mode = .calibration := by
  rw [calSession_eq]
  exact requestTaken_mode_calibration (s := latched s) hcal

end Session

/-! ### What every tick latches and consumes (R235, R236, R239) -/

section EveryTick

variable {N F : Type} (d : NumDomain N F)

theorem requestTaken_calReq (s : State N F) : (requestTaken d s).co.calReq = false := by
  cases hreq : s.co.calReq
  · rw [requestTaken_none hreq, hreq]
  · rw [requestTaken, if_pos hreq, calRequest_eq]

theorem enabledTick_calReq (inp : TickInput N F) (snap : Snapshot) (s : State N F) :
    (enabledTick d inp snap s).co.calReq = false := by
  have htaken := requestTaken_calReq d s
  unfold enabledTick
  rw [← requestTaken]
  dsimp only
  split
  · rw [openLoopBranch_calReq, State.withEst_co, htaken]
  · rw [focBranch_calReq, State.withEst_co, htaken]
  · rw [calBranch_calReq, State.withEst_co, htaken]

theorem ctrlTick_calReq (inp : TickInput N F) (s : State N F) : (ctrlTick d inp s).co.calReq = false := by
  unfold ctrlTick
  dsimp only
  split
  · exact enabledTick_calReq d inp _ _
  · rw [disabledTick_eq]

end EveryTick

/-- What the latch and the snapshot leave is what `TickFrame` speaks of. -/
theorem exec_ctrlTick_frame {s t : State} (ht : exec .ctrlTick s = .next t) : TickFrame (latched s) t := by
  cases ht
  exact ctrlTick_tickFrame f32Num (tickInput f32Num s.env) (s.withEnv (popTick s.env))

/-! ### The obligations -/

/-- Settles O37: without a handoff the branch of OpenLoop is the pattern's. -/
theorem openLoopTickDrivesPattern : Obligations.OpenLoopTickDrivesPattern := by
  intro s hen hmode hreq hno b ol
  rw [exec_ctrlTick_enabled hen, enabledTick_openLoop (s := latched s) hreq hmode, openLoopBranch_pattern hno]
  rfl

/-- Settles O38: with a valid snapshot the branch of ClosedLoopFoc drives the ramp's and the PI's command. -/
theorem focTickDrivesSpeedLoop : Obligations.FocTickDrivesSpeedLoop := by
  intro s hen hmode hreq hvalid b e slew rpm near p vq
  have hcommand : focCommand f32Num s.par s.cfg rpm e.speed b.pi = (p, vq) := focCommand_f32Num (near := near) rfl rfl rfl
  have htick : exec .ctrlTick s =
      .next (focBranch f32Num s.hreg (tickInput f32Num s.env).vDc (tickSnapshot s) (b.withEst e)) := by
    rw [exec_ctrlTick_enabled hen, enabledTick_closedLoopFoc (s := latched s) hreq hmode]
    rfl
  rw [htick, focBranch_valid (s := b.withEst e) hvalid
    (rampUpdate_f32Num s.cfg s.hreg.targetRpm s.par.tCtrl s.ramp.rpm) hcommand, drive_f32Num (s := s)] <;> rfl

/-- Settles O41: in a session the Calibrator's command is the q command and is driven. -/
theorem calibrationTickDrivesCommand : Obligations.CalibrationTickDrivesCommand := by
  intro s hen hcal a hstatus c fin
  obtain ⟨u, hu, htick⟩ := exec_ctrlTick_calibrating hen hcal
  rw [htick, calBranch_running hstatus, hu, calRunning, drive_f32Num (s := s)]
  · rfl
  · exact calSession_par s
  · exact calSession_cfg s

/-- Settles O42: in a session `CalSuccess` changes the mode, so it resets the PI. -/
theorem calibrationSuccessAppliesOffset : Obligations.CalibrationSuccessAppliesOffset := by
  intro s hen hcal a hstatus c off elec
  obtain ⟨u, hu, htick⟩ := exec_ctrlTick_calibrating hen hcal
  have helec : elecAngle f32Num (calSession s).cfg (calSession s).est.mech (normAngle f32Num (f32Num.ofFinite a.offset)) =
      elec := by
    rw [calSession_cfg]
    rfl
  rw [htick, calBranch_succeeded hstatus, hu, calSuccess_eq (calSession_mode hcal), estSetOffset, helec,
    drive_f32Num (s := s)]
  · rfl
  · exact calSession_par s
  · exact calSession_cfg s

/-- Settles O43: `CalFailure` records its cause, then enters OpenLoop with the drive on. -/
theorem calibrationFailureReverts : Obligations.CalibrationFailureReverts := by
  intro s hen hcal a hstatus c
  obtain ⟨u, hu, htick⟩ := exec_ctrlTick_calibrating hen hcal
  have hrestart : olRestart f32Num (calSession s).cfg (calSession s).ol = olRestart f32Num s.cfg s.ol := by
    rw [calSession_cfg, calSession_ol]
  rw [htick, calBranch_failed hstatus, hu, calFailure_eq, hrestart, drive_f32Num (s := s)]
  · rfl
  · exact calSession_par s
  · exact calSession_cfg s

/-- Settles O45: the latch sets the gains, and no part of the tick after it changes them or what else is named. -/
theorem tickLatchesGainsAndConsumesRequest : Obligations.TickLatchesGainsAndConsumesRequest := by
  intro s t ht
  have hframe := exec_ctrlTick_frame ht
  have hreq : t.co.calReq = false := by
    cases ht
    exact ctrlTick_calReq f32Num _ _
  exact ⟨hframe.kp, hframe.ki, hframe.outMin, hframe.outMax, hreq, hframe.hreg, hframe.opr, hframe.cfg, hframe.torque⟩

/-! ### All that a tick can do -/

/-- The branch the coming tick takes, with what decides on it (R238). Each has its whole next state among the obligations. -/
inductive TickBranch (s : State) : Prop where
  | disabled (hen : tickEnabled s = false)
  | handoff (hhands : handsOff s)
  | pattern (hen : tickEnabled s = true) (hmode : s.co.mode = .openLoop) (hreq : s.co.calReq = false)
      (hno : hallValid (tickSnapshot s).raw (tickSnapshot s).timedOut = false ∨ olReached f32Num s.ol = false)
  | closedLoop (hen : tickEnabled s = true) (hmode : s.co.mode = .closedLoopFoc) (hreq : s.co.calReq = false)
      (hvalid : hallValid (tickSnapshot s).raw (tickSnapshot s).timedOut = true)
  | safetyStop (hen : tickEnabled s = true) (hmode : s.co.mode = .closedLoopFoc) (hreq : s.co.calReq = false)
      (hcause : (tickSnapshot s).timedOut = true ∨ (tickSnapshot s).raw = 0#3 ∨ (tickSnapshot s).raw = 7#3)
  | calRunning (hen : tickEnabled s = true) (hcal : calibrating s) (hstatus : (tickInput f32Num s.env).cal.status = .running)
  | calSucceeded (hen : tickEnabled s = true) (hcal : calibrating s)
      (hstatus : (tickInput f32Num s.env).cal.status = .succeeded)
  | calFailed (hen : tickEnabled s = true) (hcal : calibrating s) (hstatus : (tickInput f32Num s.env).cal.status = .failed)

theorem cause_of_hallValid_eq_false {raw : HallCode} {timedOut : Bool} (h : hallValid raw timedOut = false) :
    timedOut = true ∨ raw = 0#3 ∨ raw = 7#3 := by
  simp only [hallValid, Bool.and_eq_false_iff, decide_eq_false_iff_not, Bool.not_eq_false'] at h
  tauto

theorem tickBranch (s : State) : TickBranch s := by
  cases hen : tickEnabled s
  case false => exact .disabled hen
  by_cases hcal : calibrating s
  case pos =>
    cases hstatus : (tickInput f32Num s.env).cal.status
    · exact .calRunning hen hcal hstatus
    · exact .calSucceeded hen hcal hstatus
    · exact .calFailed hen hcal hstatus
  obtain ⟨hreq, hnoSession⟩ := not_or.mp hcal
  rw [Bool.not_eq_true] at hreq
  cases hvalid : hallValid (tickSnapshot s).raw (tickSnapshot s).timedOut <;> cases hmode : s.co.mode
  case false.openLoop => exact .pattern hen hmode hreq (.inl hvalid)
  case false.closedLoopFoc => exact .safetyStop hen hmode hreq (cause_of_hallValid_eq_false hvalid)
  case true.openLoop =>
    cases hreached : olReached f32Num s.ol
    · exact .pattern hen hmode hreq (.inr hreached)
    · exact .handoff ⟨hen, hmode, hreq, hvalid, hreached⟩
  case true.closedLoopFoc => exact .closedLoop hen hmode hreq hvalid
  all_goals exact absurd hmode hnoSession

end Sys2Proof.Machine

/-! ## The command port and the whole machine (20_memory R77, R81; 70_reset_and_hazards R329)

What a step takes from the port, that it always answers, and what each class of operations leaves unchanged. -/

namespace Sys2Proof.Machine

open Sys2Proof.Safety

/-! ### A step, on what stands at the head of the command words -/

theorem step_of_instr {s : State} {i : Instr} {rest : List Word} (h : decode s.env.stream = .instr i rest) :
    step s = exec i (s.withStream rest) := by
  simp only [step, portStep, h]

theorem step_of_waiting {s : State} (h : decode s.env.stream = .waiting) : step s = .next s := by
  simp only [step, portStep, h]

/-! ### Which operations answer a next state -/

/-- A unit operation is a body behind the gate of the test port (30_encoding R95). -/
theorem exec_eq_unitOp {i : Instr} (hunit : i.testPortOnly = true) (s : State) : ∃ body, exec i s = unitOp body s := by
  cases i with
  | nop | hallIn | ovfTick | clkAdv | ctrlTick | regRead | regWrite | reset => cases hunit
  | _ =>
    simp only [exec, execEstUpdate, opEstUpdate, execEstReset, opEstReset, execEstSeedFilter, opEstSeedFilter,
      execEstSetOffset, opEstSetOffset, execInvPark, opInvPark, execInvClarke, opInvClarke, execLimitV, opLimitV, execSvpwm,
      opSvpwm, execPiUpdate, opPiUpdate, execPiReset, opPiReset, execPiSetGains, opPiSetGains, execPiSetLimits,
      opPiSetLimits, execPiSetSym, opPiSetSym, execOlInit, opOlInit, execOlReset, opOlReset, execOlUpdate, opOlUpdate,
      execOlReached, opOlReached, execOlRpm, opOlRpm, execRampUpdate, opRampUpdate, execRampSeed, opRampSeed]
    exact ⟨_, rfl⟩

theorem exec_goesOn {i : Instr} (hreset : i ≠ .reset) (s : State) : goesOn (exec i s) := by
  cases hunit : i.testPortOnly
  case true =>
    obtain ⟨body, hexec⟩ := exec_eq_unitOp hunit s
    exact ⟨_, hexec⟩
  case false =>
    cases i with
    | reset => exact absurd rfl hreset
    | nop | hallIn | ovfTick | clkAdv | ctrlTick | regRead | regWrite => exact ⟨_, rfl⟩
    | _ => cases hunit

theorem exec_reset (s : State) : exec .reset s = resetSequence f32Num s.par s.cap.hallLines s.env := rfl

/-! ### What a host access leaves unchanged (46_coordinator R252, R253) -/

/-- A host access acts on HREG, the operand registers, the request, the fault record and the value returned: not on these. -/
structure HostFrame {N F : Type} (s t : State N F) : Prop where
  par : t.par = s.par
  cfg : t.cfg = s.cfg
  cap : t.cap = s.cap
  est : t.est = s.est
  pi : t.pi = s.pi
  ol : t.ol = s.ol
  pwm : t.pwm = s.pwm
  stream : t.env.stream = s.env.stream
  cfgIn : t.env.cfgIn = s.env.cfgIn
  cfgs : t.env.cfgs = s.env.cfgs
  res0 : t.opr.res0 = s.opr.res0
  res1 : t.opr.res1 = s.opr.res1
  res2 : t.opr.res2 = s.opr.res2

section HostAccess

variable {N F : Type}

theorem regRead_hostFrame (d : NumDomain N F) (idx : BitVec 8) (s : State N F) : HostFrame s (regRead d idx s) := by
  rw [regRead, raiseIf_eq]
  exact ⟨rfl, rfl, rfl, rfl, rfl, rfl, rfl, rfl, rfl, rfl, rfl, rfl, rfl⟩

theorem regRead_hreg (d : NumDomain N F) (idx : BitVec 8) (s : State N F) : (regRead d idx s).hreg = s.hreg := by
  rw [regRead, raiseIf_eq]
  rfl

theorem checked_hostFrame {ok : Bool} {body : State N F → State N F} {s : State N F} (hbody : HostFrame s (body s)) :
    HostFrame s (checked ok body s) := by
  rcases checked_cases ok body s with ⟨-, hrun⟩ | ⟨-, hbad⟩
  · rwa [hrun]
  · rw [hbad]
    exact ⟨rfl, rfl, rfl, rfl, rfl, rfl, rfl, rfl, rfl, rfl, rfl, rfl, rfl⟩

theorem regWrite_hostFrame (d : NumDomain N F) (idx : BitVec 8) (data : Word) (s : State N F) :
    HostFrame s (regWrite d idx data s) := by
  unfold regWrite
  split
  case h_1 =>
    rw [writeCtrl_eq]
    exact ⟨rfl, rfl, rfl, rfl, rfl, rfl, rfl, rfl, rfl, rfl, rfl, rfl, rfl⟩
  case h_2 | h_3 | h_4 | h_5 =>
    exact checked_hostFrame ⟨rfl, rfl, rfl, rfl, rfl, rfl, rfl, rfl, rfl, rfl, rfl, rfl, rfl⟩
  all_goals exact ⟨rfl, rfl, rfl, rfl, rfl, rfl, rfl, rfl, rfl, rfl, rfl, rfl, rfl⟩

end HostAccess

/-! ### What every operation leaves of the parameters and the port -/

/-- The parameters, CFG, the waiting words and the configuration input. -/
structure PortFrame (s t : State) : Prop where
  par : t.par = s.par
  stream : t.env.stream = s.env.stream
  cfg : t.cfg = s.cfg
  cfgIn : t.env.cfgIn = s.env.cfgIn
  cfgs : t.env.cfgs = s.env.cfgs

theorem exec_portFrame {i : Instr} {s t : State} (ht : exec i s = .next t) (hreset : i ≠ .reset) : PortFrame s t := by
  cases hunit : i.testPortOnly
  case true =>
    rcases exec_unit_cases hunit ht with hframe | rfl | rfl
    · exact ⟨hframe.par, by rw [hframe.env], hframe.cfg, by rw [hframe.env], by rw [hframe.env]⟩
    · exact ⟨rfl, rfl, rfl, rfl, rfl⟩
    · exact ⟨rfl, rfl, rfl, rfl, rfl⟩
  case false =>
    cases i with
    | reset => exact absurd rfl hreset
    | nop | hallIn | ovfTick | clkAdv => cases ht; exact ⟨rfl, rfl, rfl, rfl, rfl⟩
    | ctrlTick =>
      have h := exec_ctrlTick_frame ht
      exact ⟨h.par, h.stream, h.cfg, h.cfgIn, h.cfgs⟩
    | regRead idx =>
      cases ht
      have h := regRead_hostFrame f32Num idx s
      exact ⟨h.par, h.stream, h.cfg, h.cfgIn, h.cfgs⟩
    | regWrite idx data =>
      cases ht
      have h := regWrite_hostFrame f32Num idx data s
      exact ⟨h.par, h.stream, h.cfg, h.cfgIn, h.cfgs⟩
    | _ => cases hunit

/-! ### The obligations -/

/-- Settles O4: the two clauses are two arms of the port's step. -/
theorem stepRunsDecodedOperation : Obligations.StepRunsDecodedOperation :=
  fun _ => ⟨fun _ _ => step_of_instr, step_of_waiting⟩

/-- Settles O6: a unit operation is a body behind the gate. -/
theorem unitOperationsNeedTestPort : Obligations.UnitOperationsNeedTestPort := by
  intro i s hunit hport
  obtain ⟨body, hexec⟩ := exec_eq_unitOp hunit s
  rw [hexec, unitOp_disabled body s hport, raiseFault_illegalOp]

/-- Settles O7: of the operations only RESET can be refused, and it is exactly for a record out of range. -/
theorem blockNeverHalts : Obligations.BlockNeverHalts := by
  intro s
  cases hdec : decode s.env.stream with
  | waiting => exact .inl ⟨s, step_of_waiting hdec⟩
  | illegal why rest => exact .inl ⟨_, step_of_illegal hdec⟩
  | instr i rest =>
    rw [step_of_instr hdec]
    by_cases hreset : i = .reset
    case neg => exact .inl (exec_goesOn hreset _)
    subst hreset
    rw [exec_reset]
    rcases resetSequence_cases f32Num s.par s.cap.hallLines (setStream rest s.env) with ⟨_, hnext⟩ | ⟨hout, hrefused⟩
    · exact .inl ⟨_, hnext⟩
    · exact .inr ⟨⟨rest, rfl⟩, hout, hrefused⟩

/-- Settles O8: RESET apart, the frame of each class of operations; RESET keeps the parameters and the waiting words. -/
theorem operationsKeepParametersAndPort : Obligations.OperationsKeepParametersAndPort := by
  intro i s t ht
  by_cases hreset : i = .reset
  case pos =>
    subst hreset
    obtain ⟨legal, rfl⟩ := resetSequence_next ht
    exact ⟨rfl, rfl, fun h => absurd rfl h⟩
  case neg =>
    have h := exec_portFrame ht hreset
    exact ⟨h.par, h.stream, fun _ => ⟨h.cfg, h.cfgIn, h.cfgs⟩⟩

/-- Settles O55: a unit operation writes neither CAP nor HREG, a tick writes CAP by its snapshot alone, and a host access writes
neither CAP nor the results. -/
theorem writersOfCapResultsAndHreg : Obligations.WritersOfCapResultsAndHreg := by
  intro i s t ht hreset inp
  cases hunit : i.testPortOnly
  case true =>
    have htick : i ≠ .ctrlTick := by rintro rfl; cases hunit
    rcases exec_unit_cases hunit ht with hframe | rfl | rfl
    · exact ⟨fun _ _ _ => by rw [if_neg htick, hframe.cap], nofun, fun _ => hframe.hreg⟩
    · exact ⟨fun _ _ _ => (if_neg htick).symm, nofun, fun _ => rfl⟩
    · exact ⟨fun _ _ _ => (if_neg htick).symm, nofun, fun _ => rfl⟩
  case false =>
    cases i with
    | reset => exact absurd rfl hreset
    | nop => cases ht; exact ⟨fun _ _ _ => rfl, fun _ => ⟨rfl, rfl, rfl⟩, fun _ => rfl⟩
    | hallIn lines => cases ht; exact ⟨fun h => absurd rfl (h lines), fun _ => ⟨rfl, rfl, rfl⟩, fun _ => rfl⟩
    | ovfTick => cases ht; exact ⟨fun _ h => absurd rfl h, fun _ => ⟨rfl, rfl, rfl⟩, fun _ => rfl⟩
    | clkAdv n => cases ht; exact ⟨fun _ _ h => absurd rfl (h n), fun _ => ⟨rfl, rfl, rfl⟩, fun _ => rfl⟩
    | ctrlTick =>
      have h := exec_ctrlTick_frame ht
      refine ⟨fun _ _ _ => ?_, fun _ => ?_, fun _ => h.hreg⟩
      · rw [h.cap, if_pos rfl]
        exact takeSnapshot_cap s.par inp s.cap
      · rw [h.opr]
        exact ⟨rfl, rfl, rfl⟩
    | regRead idx =>
      cases ht
      have h := regRead_hostFrame f32Num idx s
      exact ⟨fun _ _ _ => h.cap, fun _ => ⟨h.res0, h.res1, h.res2⟩, fun _ => regRead_hreg f32Num idx s⟩
    | regWrite idx data =>
      cases ht
      have h := regWrite_hostFrame f32Num idx data s
      exact ⟨fun _ _ _ => h.cap, fun _ => ⟨h.res0, h.res1, h.res2⟩, fun hw => absurd rfl (hw idx data)⟩
    | _ => cases hunit

end Sys2Proof.Machine

/-! ## Runs of capture operations (40_capture R112; 60_exceptions R296; 70_reset_and_hazards R320) -/

namespace Sys2Proof.Machine

open Sys2Proof.Safety

/-! ### The block runs through a list of capture operations -/

theorem exec_captureInstr (op : CaptureOp) (s : State) :
    exec (captureInstr op) s = .next (s.withCap (captureStep s.par op s.cap)) := by
  cases op <;> rfl

theorem core_run_succ {s t : State} (h : step s = .next t) (k : Nat) :
    Host.Core.run core (k + 1) s = Host.Core.run core k t := by
  have hstep : core.step s = .next t := h
  simp only [Host.Core.run, hstep]

/-- Settles O12, by induction on the operations: each step decodes the first one's words and runs it. -/
theorem captureStreamNeverStopsBlock : Obligations.CaptureStreamNeverStopsBlock := by
  intro ops rest
  induction ops with
  | nil =>
    rintro s rfl
    rfl
  | cons op ops ih =>
    intro s hstream
    let tail := ops.flatMap (fun op => encode (captureInstr op)) ++ rest
    have hdec : decode s.env.stream = .instr (captureInstr op) tail := by
      rw [hstream, List.flatMap_cons, List.append_assoc]
      exact encodedOperationsDecode (captureInstr op) tail
    have hstep : step s = .next ((s.withStream tail).withCap (captureStep s.par op s.cap)) := by
      rw [step_of_instr hdec, exec_captureInstr]
      rfl
    rw [List.length_cons, core_run_succ hstep]
    exact ih _ rfl

/-! ### Overflow ticks without an edge -/

/-- Settles O11, by induction on the number of ticks: below its bound the count takes one step a tick. -/
theorem timeoutComesAfterStallLimit : Obligations.TimeoutComesAfterStallLimit := by
  intro par c n hcount htimeout
  induction n with
  | zero =>
    intro _
    simp [captureAll, hcount, htimeout]
  | succ n ih =>
    intro hn
    obtain ⟨ihcount, ihtimeout, ihperiod, ihraw, ihts, ihcnt⟩ := ih (by omega)
    rw [List.replicate_succ', captureAll_append]
    generalize captureAll par (List.replicate n .ovfTick) c = c' at *
    have hnext : stallNext par.wStall c'.stallCount = n + 1 := by
      rw [ihcount, stallNext, if_pos (by omega)]
    have hstep : captureAll par [.ovfTick] c' = capOvfTick par c' := rfl
    rw [hstep]
    by_cases hlimit : par.stallLimit < n + 1
    · rw [capOvfTick_timeout (by rwa [hnext]), hnext]
      exact ⟨rfl, (decide_eq_true hlimit).symm, (if_pos hlimit).symm, ihraw, ihts, ihcnt⟩
    · have hlimit' : ¬ par.stallLimit < n := by omega
      rw [if_neg hlimit'] at ihperiod
      rw [capOvfTick_noTimeout (by rw [hnext]; omega), hnext]
      refine ⟨rfl, ?_, ihperiod.trans (if_neg hlimit).symm, ihraw, ihts, ihcnt⟩
      rw [ihtimeout, decide_eq_false hlimit, decide_eq_false hlimit']

/-- Settles O13: the capture after two gaps is the capture after their operations one after the other. -/
theorem snapshotReadsInOrder : Obligations.SnapshotReadsInOrder := by
  intro par inp c sc after
  simp [sc, after, takeSnapshot, captureAll_append]

end Sys2Proof.Machine

/-! ## The register space (10_state R34 to R54; 46_coordinator R252, R254, R255; 20_memory R71, R73)

The indices that show nothing, the fields of the two packed registers, the adapter's accesses, and the reset sequence. -/

namespace Sys2Proof.Machine

open Sys2Proof.Safety

/-! ### REG_READ -/

theorem exec_regRead (idx : BitVec 8) (s : State) : exec (.regRead idx) s = .next (regRead f32Num idx s) := rfl

/-- The reserved indices are those outside the register map (10_state R54). -/
theorem view_eq_none_iff (s : State) (idx : BitVec 8) :
    view f32Num s idx = none ↔ (0x05 ≤ idx.toNat ∧ idx.toNat ≤ 0x07) ∨ idx.toNat = 0x0F ∨ 0x1D ≤ idx.toNat := by
  unfold view
  split
  case h_26 =>
    simp only [imp_false, true_iff] at *
    bv_omega
  all_goals simp

section RegRead

variable {idx : BitVec 8} {s : State}

theorem regRead_of_view {w : Word} (h : view f32Num s idx = some w) : regRead f32Num idx s = returnValue w s := by
  simp [regRead, raiseIf, reservedIndex, readWord, h]

theorem regRead_of_reserved (h : view f32Num s idx = none) :
    regRead f32Num idx s = raiseFault .illegalAccess (returnValue 0#32 s) := by
  simp [regRead, raiseIf, reservedIndex, readWord, h]

end RegRead

/-- Settles O46: a read returns the shown word, and the reserved indices show none. -/
theorem regReadReturnsView : Obligations.RegReadReturnsView := by
  intro idx s
  refine ⟨fun w hw => ?_, fun hreserved => ?_, view_eq_none_iff s idx⟩
  · rw [exec_regRead, regRead_of_view hw]
    rfl
  · rw [exec_regRead, regRead_of_reserved ((view_eq_none_iff s idx).mpr hreserved), raiseFault_illegalAccess]
    rfl

/-! ### The register map -/

/-- Settles O47: each index has its arm in the view; a field narrower than the word is padded with zeros. -/
theorem registerMapShowsFields : Obligations.RegisterMapShowsFields := by
  intro s
  have hpad (v : BitVec 16) : v.setWidth 32 = 0#16 ++ v := by
    rw [BitVec.setWidth_eq_append (by decide), BitVec.cast_eq]
  refine ⟨rfl, rfl, rfl, rfl, rfl, rfl, rfl, rfl, rfl, rfl, rfl, rfl, rfl, rfl, rfl, rfl, ?dutyW, rfl, ?fault, rfl, rfl, rfl,
    rfl⟩
  case dutyW => exact congrArg some (hpad _)
  case fault => exact congrArg some (hpad _)

/-- Settles O49: the two packed registers are concatenations of their fields, read at each field's bits. -/
theorem statusAndCtrlFields : Obligations.StatusAndCtrlFields := by
  intro s
  refine ⟨statusWord f32Num s, ctrlWord s, rfl, rfl, ?mode, ?moe, ?phaseEn, ?hallValid, ?timedOut, ?rawState, ?calDone,
    ?calSuccess, ?calDirInv, ?reached, ?reservedBit, ?lastFault, ?reserved, ?en, ?calReq, ?ctrlReserved⟩
  case mode | phaseEn | rawState | lastFault | reserved | ctrlReserved =>
    simp (disch := decide) only [statusWord, ctrlWord, BitVec.extractLsb'_append_eq_of_le,
      BitVec.extractLsb'_append_eq_of_add_le, Nat.reduceSub, BitVec.extractLsb'_eq_self] <;> rfl
  all_goals
    simp only [statusWord, ctrlWord, BitVec.getLsbD_append]
    simp [olReached]

/-! ### The byte-addressed adapter -/

/-- Settles O51: an access is a register access where it is a whole word at a multiple of 4. -/
theorem adapterMapsWordAccesses : Obligations.AdapterMapsWordAccesses := by
  intro addr size v s
  refine ⟨fun halign hmapped => ?mapped, fun hbad => ?refused, fun halign habove => ?above⟩
  case mapped =>
    have hword : wordAccess addr 4 = true := by simp [wordAccess, halign]
    simp [memRead, memWrite, hword, hmapped, exec_regRead, exec_regWrite]
  case refused =>
    have hword : wordAccess addr size = false := by simpa [wordAccess, imp_iff_not_or] using hbad
    simp [memRead, memWrite, hword, raiseFault_illegalAccess]
    rfl
  case above =>
    have hword : wordAccess addr 4 = true := by simp [wordAccess, halign]
    simp [memRead, memWrite, hword, Nat.not_le_of_lt habove]

/-! ### The reset sequence -/

/-- Settles O52: RESET and power-on run one reset sequence, whose state is computed from the record it samples. -/
theorem resetPutsResetValues : Obligations.ResetPutsResetValues := by
  intro s
  refine ⟨rfl, rfl, fun hout => resetSequence_illegal _ hout, fun hlegal => ?_⟩
  intro c T
  have hT (rpm : F32) : stepPeriod f32Num c rpm = T rpm := stepPeriod_f32Num c rpm
  have hol : olPowerOn f32Num c = ⟨c.olInitRpm, c.olTargetRpm, c.olAccel, c.olDuty, 0, 0#32, T c.olInitRpm, T c.olTargetRpm,
      fDiv c.olInitRpm (fAdd c.olInitRpm (fMul c.olAccel (T c.olInitRpm)))⟩ :=
    olStart_of_stepPeriod (hT c.olInitRpm) (hT c.olTargetRpm)
  rw [exec_reset, resetSequence_legal _ hlegal, State.resetWith, hol]
  rfl

end Sys2Proof.Machine

/-! ## The order of the patterns, and the clamp (00_scope section 6; 44_pi R190)

`max`, `min` and `clamp` of numbers in terms of the order of their patterns, which the ties of log 4 do not change. -/

namespace Sys2Proof.Machine

open Sys2Proof.Safety

section Order

variable {x y v lo hi : F32}

theorem fLt_iff : fLt x y = true ↔ fIsNaN x = false ∧ fIsNaN y = false ∧ fOrder x < fOrder y := by
  simp [fLt, and_assoc]

theorem fLe_iff : fLe x y = true ↔ fIsNaN x = false ∧ fIsNaN y = false ∧ fOrder x ≤ fOrder y := by
  simp [fLe, and_assoc]

theorem fLe_of_fLt (h : fLt x y = true) : fLe x y = true := by
  obtain ⟨hx, hy, hlt⟩ := fLt_iff.mp h
  exact fLe_iff.mpr ⟨hx, hy, hlt.le⟩

theorem fLt_asymm (h : fLt x y = true) : fLt y x = false := fLt_eq_false_of_fLe (fLe_of_fLt h)

/-! ### The sign inverted -/

theorem extractLsb'_fNeg (x : F32) {start len : Nat} (h : (0x80000000#32).extractLsb' start len = 0#len) :
    (fNeg x).extractLsb' start len = x.extractLsb' start len := by
  rw [fNeg, BitVec.extractLsb'_xor, h, BitVec.xor_zero]

theorem fExponent_fNeg (x : F32) : fExponent (fNeg x) = fExponent x := by
  rw [fExponent, extractLsb'_fNeg x (by decide), fExponent]

theorem fFraction_fNeg (x : F32) : fFraction (fNeg x) = fFraction x := by
  rw [fFraction, extractLsb'_fNeg x (by decide), fFraction]

theorem fNegative_fNeg (x : F32) : fNegative (fNeg x) = !fNegative x := by
  rw [fNegative, fNeg, BitVec.msb_xor]
  exact Bool.xor_true _

theorem fIsNaN_fNeg (x : F32) : fIsNaN (fNeg x) = fIsNaN x := by
  rw [fIsNaN, fExponent_fNeg, fFraction_fNeg, fIsNaN]

theorem fOrder_fNeg (x : F32) : fOrder (fNeg x) = -fOrder x := by
  rw [fOrder, fNegative_fNeg, extractLsb'_fNeg x (by decide), fOrder]
  cases fNegative x <;> simp

/-- A value above 0 lies above its negation: the limits of PI_SET_SYM are in order (44_pi R194). -/
theorem fLt_fNeg_self (h : fLt 0#32 x = true) : fLt (fNeg x) x = true := by
  obtain ⟨-, hx, hpos⟩ := fLt_iff.mp h
  have hzero : fOrder 0#32 = 0 := by decide
  refine fLt_iff.mpr ⟨(fIsNaN_fNeg x).trans hx, hx, ?_⟩
  rw [fOrder_fNeg]
  omega

/-! ### The greater and the smaller of two numbers -/

theorem fMax_of_lt (h : fLt x y = true) : fMax x y = y := by
  obtain ⟨hx, hy, -⟩ := fLt_iff.mp h
  simp [fMax, hx, hy, h]

theorem fMax_of_gt (h : fLt y x = true) : fMax x y = x := by
  obtain ⟨hy, hx, -⟩ := fLt_iff.mp h
  simp [fMax, hx, hy, h, fLt_asymm h]

theorem fMin_of_lt (h : fLt x y = true) : fMin x y = x := by
  obtain ⟨hx, hy, -⟩ := fLt_iff.mp h
  simp [fMin, hx, hy, h]

theorem fMin_of_gt (h : fLt y x = true) : fMin x y = y := by
  obtain ⟨hy, hx, -⟩ := fLt_iff.mp h
  simp [fMin, hx, hy, h, fLt_asymm h]

/-- Of two numbers in a tie either one is given, and both stand at the same place of the order. -/
theorem minMaxTie_eq (op : NumOp) (x y : F32) : minMaxTie op x y = x ∨ minMaxTie op x y = y := by
  unfold minMaxTie
  split
  · exact .inl rfl
  · split
    · exact .inr rfl
    · exact .inl rfl

theorem fOrder_fMax (hx : fIsNaN x = false) (hy : fIsNaN y = false) :
    fIsNaN (fMax x y) = false ∧ fOrder (fMax x y) = max (fOrder x) (fOrder y) := by
  rcases lt_trichotomy (fOrder x) (fOrder y) with h | h | h
  · rw [fMax_of_lt (fLt_iff.mpr ⟨hx, hy, h⟩)]
    exact ⟨hy, (max_eq_right h.le).symm⟩
  · have htie : fMax x y = minMaxTie .max x y := by simp [fMax, fLt, hx, hy, h]
    rcases minMaxTie_eq .max x y with he | he <;> rw [htie, he] <;> simp [hx, hy, h]
  · rw [fMax_of_gt (fLt_iff.mpr ⟨hy, hx, h⟩)]
    exact ⟨hx, (max_eq_left h.le).symm⟩

theorem fOrder_fMin (hx : fIsNaN x = false) (hy : fIsNaN y = false) :
    fIsNaN (fMin x y) = false ∧ fOrder (fMin x y) = min (fOrder x) (fOrder y) := by
  rcases lt_trichotomy (fOrder x) (fOrder y) with h | h | h
  · rw [fMin_of_lt (fLt_iff.mpr ⟨hx, hy, h⟩)]
    exact ⟨hx, (min_eq_left h.le).symm⟩
  · have htie : fMin x y = minMaxTie .min x y := by simp [fMin, fLt, hx, hy, h]
    rcases minMaxTie_eq .min x y with he | he <;> rw [htie, he] <;> simp [hx, hy, h]
  · rw [fMin_of_gt (fLt_iff.mpr ⟨hy, hx, h⟩)]
    exact ⟨hy, (min_eq_right h.le).symm⟩

/-! ### The clamp -/

/-- The clamp of a number is what its definition says (00_scope section 6). -/
theorem fClamp_of_number (hv : fIsNaN v = false) : fClamp v lo hi = fMin (fMax v lo) hi := by
  simp [fClamp, hv]

/-- Between bounds in order the clamp lies within them, also of a NaN. -/
theorem fClamp_between (v : F32) (h : fLe lo hi = true) :
    fLe lo (fClamp v lo hi) = true ∧ fLe (fClamp v lo hi) hi = true := by
  cases hv : fIsNaN v
  case true =>
    have hnan : fClamp v lo hi = clampedNaN v lo hi := by simp [fClamp, hv, h]
    rw [hnan]
    exact clampedNaN_between h
  case false =>
    obtain ⟨hlo, hhi, hle⟩ := fLe_iff.mp h
    obtain ⟨hmax, horder⟩ := fOrder_fMax hv hlo
    obtain ⟨hmin, horder'⟩ := fOrder_fMin hmax hhi
    rw [fClamp_of_number hv, fLe_iff, fLe_iff, horder', horder]
    exact ⟨⟨hlo, hmin, by omega⟩, hmin, hhi, by omega⟩

theorem fClamp_below (h : fLt v lo = true) (hbounds : fLt lo hi = true) : fClamp v lo hi = lo := by
  obtain ⟨hv, -⟩ := fLt_iff.mp h
  rw [fClamp_of_number hv, fMax_of_lt h, fMin_of_lt hbounds]

theorem fClamp_inside (hlo : fLt lo v = true) (hhi : fLt v hi = true) : fClamp v lo hi = v := by
  obtain ⟨hv, -⟩ := fLt_iff.mp hhi
  rw [fClamp_of_number hv, fMax_of_gt hlo, fMin_of_lt hhi]

theorem fClamp_above (h : fLt hi v = true) (hbounds : fLt lo hi = true) : fClamp v lo hi = hi := by
  obtain ⟨-, hv, habove⟩ := fLt_iff.mp h
  obtain ⟨hlo, -, horder⟩ := fLt_iff.mp hbounds
  rw [fClamp_of_number hv, fMax_of_gt (fLt_iff.mpr ⟨hlo, hv, horder.trans habove⟩), fMin_of_gt h]

end Order

/-- Settles O29: the output is a clamp between the limits, which are in order. -/
theorem piOutputStaysWithinLimits : Obligations.PiOutputStaysWithinLimits :=
  ⟨fun _ _ _ _ hlimits => fClamp_between _ (fLe_of_fLt hlimits),
    fun _ _ _ hbounds => ⟨fun h => fClamp_below h hbounds, fun h => fClamp_above h hbounds, fClamp_inside⟩⟩

/-! ### The normalised angle, and the phase voltages under NUM = REAL (41_estimator R131, 42_transform R161) -/

/-- Settles O16: the definition's steps under the operations of binary32. -/
theorem angleNormalisationHasThreeSteps : Obligations.AngleNormalisationHasThreeSteps := fun _ => rfl

/-- Under NUM = REAL the first step leaves the fractional part of `v / 2π`, scaled back, so the other two never act. -/
theorem normAngle_realNum (v : ℝ) : normAngle realNum v = 2 * Real.pi * Int.fract (v / (2 * Real.pi)) := by
  have hpos : 0 < 2 * Real.pi := Real.two_pi_pos
  have hfirst : v - 2 * Real.pi * ⌊v / (2 * Real.pi)⌋ = 2 * Real.pi * Int.fract (v / (2 * Real.pi)) := by
    rw [Int.fract, mul_sub, mul_div_cancel₀ v hpos.ne']
  have hnonneg : 0 ≤ 2 * Real.pi * Int.fract (v / (2 * Real.pi)) := mul_nonneg hpos.le (Int.fract_nonneg _)
  have hlt : 2 * Real.pi * Int.fract (v / (2 * Real.pi)) < 2 * Real.pi :=
    mul_lt_of_lt_one_right hpos (Int.fract_lt_one _)
  simp only [normAngle, realNum_sub, realNum_mul, realNum_twoPi, realNum_floor, realNum_div _ _ hpos.ne', hfirst, realNum_lt,
    realNum_le, realNum_num0, if_neg hnonneg.not_gt, if_neg hlt.not_ge]

/-- Settles O17: a fractional part lies in [0, 1), and what is taken off is a multiple. -/
theorem realAngleNormalisationIsTheRepresentative : Obligations.RealAngleNormalisationIsTheRepresentative := by
  intro v
  have hpos : 0 < 2 * Real.pi := Real.two_pi_pos
  rw [normAngle_realNum]
  refine ⟨mul_nonneg hpos.le (Int.fract_nonneg _), mul_lt_of_lt_one_right hpos (Int.fract_lt_one _),
    ⌊v / (2 * Real.pi)⌋, ?_⟩
  rw [Int.fract, mul_sub, mul_div_cancel₀ v hpos.ne', sub_sub_cancel]

/-- Settles O21: the second and the third phase voltage are `−v/2` plus and minus the same term. -/
theorem realPhaseVoltagesBalance : Obligations.RealPhaseVoltagesBalance := by
  intro va vb
  simp only [invClarke, realNum_add, realNum_sub, realNum_neg, realNum_num2, realNum_div _ _ two_ne_zero]
  ring

end Sys2Proof.Machine

/-! ## What the operations do to the units' records

The inversion of every unit operation, from which the invariants of the estimator, the PI and the starter follow. -/

namespace Sys2Proof.Machine

open Sys2Proof.Safety

/-! ### The effect of a unit operation on each record (30_encoding R93) -/

/-- All that a unit operation leaves in EST (41_estimator R141 to R144). -/
inductive EstEffect (s : State) : Est → Prop where
  | kept : EstEffect s s.est
  | updated : EstEffect s (estUpdate f32Num s.par s.cfg (liveSnapshot s.cap) s.est)
  | restarted : EstEffect s (estReset f32Num s.est)
  | seeded (v : F32) : EstEffect s (estSeed v s.est)
  | calibrated (offset : F32) (inv : Bool) : EstEffect s (estSetOffset f32Num s.cfg offset inv s.est)

/-- All that a unit operation leaves in the PI (44_pi R190 to R194). -/
inductive PiEffect (s : State) : Pi → Prop where
  | kept : PiEffect s s.pi
  | updated (setpoint measured dt : F32) : PiEffect s (piUpdate f32Num setpoint measured dt s.pi)
  | cleared : PiEffect s (piReset f32Num s.pi)
  | gains (kp ki : F32) : PiEffect s (piSetGains kp ki s.pi)
  | limits {lo hi : F32} (h : fLt lo hi = true) : PiEffect s (piSetLimits lo hi s.pi)

/-- All that the unit operation `i` leaves in OL (45_openloop R212 to R214). -/
inductive OlEffect (i : Instr) (s : State) : Ol → Prop where
  | kept : OlEffect i s s.ol
  | advanced (dt : F32) : OlEffect i s (olUpdate f32Num dt s.ol)
  | started (hi : i = .olInit) {init target accel duty : F32} (h : olParamsOk f32Num init target accel duty = true) :
      OlEffect i s (olStart f32Num s.cfg init target accel duty)
  | restarted (hi : i = .olReset) : OlEffect i s (olRestart f32Num s.cfg s.ol)

section UnitInversion

variable {P : State → Prop} {body : State → State} {s t : State}

/-- What holds after the body and after a raise holds after a unit operation. -/
theorem unitOp_next (ht : unitOp body s = .next t) (hraise : ∀ c, P (raiseFault c s)) (hbody : P (body s)) : P t := by
  rcases unitOp_cases ht with ⟨-, rfl⟩ | ⟨-, rfl⟩
  · exact hbody
  · exact hraise .illegalOp

theorem unitOp_checked_next {ok : Bool} (ht : unitOp (checked ok body) s = .next t) (hraise : ∀ c, P (raiseFault c s))
    (hbody : ok = true → P (body s)) : P t := by
  refine unitOp_next ht hraise ?_
  rcases checked_cases ok body s with ⟨hok, hrun⟩ | ⟨-, hbad⟩
  · rw [hrun]
    exact hbody hok
  · rw [hbad]
    exact hraise .badValue

end UnitInversion

/-- The three effects of a unit operation. -/
def UnitEffect (i : Instr) (s t : State) : Prop := EstEffect s t.est ∧ PiEffect s t.pi ∧ OlEffect i s t.ol

theorem raiseFault_unitEffect (i : Instr) (s : State) (c : Cause) : UnitEffect i s (raiseFault c s) :=
  ⟨.kept, .kept, .kept⟩

theorem exec_unitEffect {i : Instr} {s t : State} (hunit : i.testPortOnly = true) (ht : exec i s = .next t) :
    UnitEffect i s t := by
  have hraise := raiseFault_unitEffect i s
  cases i with
  | nop | hallIn | ovfTick | clkAdv | ctrlTick | regRead | regWrite | reset => cases hunit
  | estUpdate =>
    simp only [exec, execEstUpdate, opEstUpdate] at ht
    exact unitOp_next ht hraise ⟨.updated, .kept, .kept⟩
  | estReset =>
    simp only [exec, execEstReset, opEstReset] at ht
    exact unitOp_next ht hraise ⟨.restarted, .kept, .kept⟩
  | piReset =>
    simp only [exec, execPiReset, opPiReset] at ht
    exact unitOp_next ht hraise ⟨.kept, .cleared, .kept⟩
  | olReset =>
    simp only [exec, execOlReset, opOlReset] at ht
    exact unitOp_next ht hraise ⟨.kept, .kept, .restarted rfl⟩
  | olReached | olRpm =>
    simp only [exec, execOlReached, opOlReached, execOlRpm, opOlRpm] at ht
    exact unitOp_next ht hraise ⟨.kept, .kept, .kept⟩
  | estSeedFilter =>
    simp only [exec, execEstSeedFilter, opEstSeedFilter] at ht
    exact unitOp_checked_next ht hraise fun _ => ⟨.seeded _, .kept, .kept⟩
  | estSetOffset =>
    simp only [exec, execEstSetOffset, opEstSetOffset] at ht
    exact unitOp_checked_next ht hraise fun _ => ⟨.calibrated _ _, .kept, .kept⟩
  | piUpdate =>
    simp only [exec, execPiUpdate, opPiUpdate] at ht
    exact unitOp_checked_next ht hraise fun _ => ⟨.kept, .updated _ _ _, .kept⟩
  | piSetGains =>
    simp only [exec, execPiSetGains, opPiSetGains] at ht
    exact unitOp_checked_next ht hraise fun _ => ⟨.kept, .gains _ _, .kept⟩
  | piSetLimits =>
    simp only [exec, execPiSetLimits, opPiSetLimits] at ht
    exact unitOp_checked_next ht hraise fun hok => ⟨.kept, .limits (Bool.and_eq_true_iff.mp hok).2, .kept⟩
  | piSetSym =>
    simp only [exec, execPiSetSym, opPiSetSym] at ht
    exact unitOp_checked_next ht hraise fun hok => ⟨.kept, .limits (fLt_fNeg_self (Bool.and_eq_true_iff.mp hok).2), .kept⟩
  | olInit =>
    simp only [exec, execOlInit, opOlInit] at ht
    exact unitOp_checked_next ht hraise fun hok => ⟨.kept, .kept, .started rfl (Bool.and_eq_true_iff.mp hok).2⟩
  | olUpdate =>
    simp only [exec, execOlUpdate, opOlUpdate] at ht
    exact unitOp_checked_next ht hraise fun _ => ⟨.kept, .kept, .advanced _⟩
  | invPark | invClarke | limitV | svpwm | rampUpdate | rampSeed =>
    simp only [exec, execInvPark, opInvPark, execInvClarke, opInvClarke, execLimitV, opLimitV, execSvpwm, opSvpwm,
      execRampUpdate, opRampUpdate, execRampSeed, opRampSeed] at ht
    exact unitOp_checked_next ht hraise fun _ => ⟨.kept, .kept, .kept⟩

end Sys2Proof.Machine

/-! ## What only some operations undo (44_pi R190, R191; 45_openloop R215) -/

namespace Sys2Proof.Machine

open Sys2Proof.Safety

/-- An operation has one answer. -/
theorem next_unique {i : Instr} {s t u : State} (ht : exec i s = .next t) (hu : exec i s = .next u) : t = u :=
  Host.Outcome.next.inj (ht.symm.trans hu)

/-! ### The integral (R190, R191) -/

/-- The integral is held, or put to 0, or the previous output was strictly inside the limits. -/
def IntegralRule (p q : Pi) : Prop := q.integral = p.integral ∨ q.integral = 0#32 ∨ piInside f32Num p = true

theorem piUpdate_integralRule (setpoint measured dt : F32) (p : Pi) :
    IntegralRule p (piUpdate f32Num setpoint measured dt p) := by
  by_cases hin : piInside f32Num p = true
  · exact .inr (.inr hin)
  · rw [piUpdate_outside hin rfl]
    exact .inl rfl

/-- The Calibrator is called with the latched PI, reset where a request has just started the session (46_coordinator R239). -/
theorem calSession_pi (s : State) :
    (calSession s).pi =
      if s.co.calReq = true ∧ s.co.mode ≠ .calibration then piReset f32Num (latched s).pi else (latched s).pi := by
  cases hreq : s.co.calReq <;> by_cases hmode : s.co.mode = .calibration <;> simp [calSession, hreq, hmode, piReset]

theorem calSession_integralRule (s : State) : IntegralRule s.pi (calSession s).pi := by
  rw [calSession_pi]
  split
  · exact .inr (.inl rfl)
  · exact .inl rfl

/-- Each tick but the one that hands off runs at most one `PiUpdate`, of the latched PI. -/
theorem integralRule_of_tick {s t : State} (ht : exec .ctrlTick s = .next t) (hhands : ¬ handsOff s) :
    IntegralRule s.pi t.pi := by
  cases tickBranch s with
  | handoff h => exact absurd h hhands
  | disabled hen =>
    obtain rfl := next_unique ht (disabledTickShutsDown s hen)
    exact .inr (.inl rfl)
  | pattern hen hmode hreq hno =>
    obtain rfl := next_unique ht (openLoopTickDrivesPattern s hen hmode hreq hno)
    exact .inl rfl
  | closedLoop hen hmode hreq hvalid =>
    obtain rfl := next_unique ht (focTickDrivesSpeedLoop s hen hmode hreq hvalid)
    dsimp only
    split
    · exact .inr (.inl rfl)
    · exact piUpdate_integralRule _ _ _ (latched s).pi
  | safetyStop hen hmode hreq hcause =>
    obtain rfl := next_unique ht (safetyStopZeroesDuties s hen hmode hreq hcause)
    exact .inr (.inl rfl)
  | calRunning hen hcal hstatus =>
    obtain rfl := next_unique ht (calibrationTickDrivesCommand s hen hcal hstatus)
    exact calSession_integralRule s
  | calSucceeded hen hcal hstatus =>
    obtain rfl := next_unique ht (calibrationSuccessAppliesOffset s hen hcal hstatus)
    exact .inr (.inl rfl)
  | calFailed hen hcal hstatus =>
    obtain rfl := next_unique ht (calibrationFailureReverts s hen hcal hstatus)
    exact .inr (.inl rfl)

/-- The tick that hands off runs `PiUpdate` of a PI that was reset. -/
theorem integralRule_of_handoff {s t : State} (ht : exec .ctrlTick s = .next t) (hhands : handsOff s) :
    IntegralRule (piReset f32Num s.pi) t.pi := by
  obtain rfl := next_unique ht (handoffSeedsAndDrives s hhands)
  dsimp only
  split
  · exact .inl rfl
  · exact piUpdate_integralRule _ _ _ (piReset f32Num (latched s).pi)

theorem PiEffect.integralRule {s : State} {p : Pi} (h : PiEffect s p) : IntegralRule s.pi p := by
  cases h with
  | updated setpoint measured dt => exact piUpdate_integralRule setpoint measured dt s.pi
  | cleared => exact .inr (.inl rfl)
  | kept | gains | limits => exact .inl rfl

theorem integralRule_of_exec {i : Instr} {s t : State} (ht : exec i s = .next t) (hhands : ¬ (i = .ctrlTick ∧ handsOff s)) :
    IntegralRule s.pi t.pi := by
  cases hunit : i.testPortOnly
  case true =>
    obtain ⟨-, hpi, -⟩ := exec_unitEffect hunit ht
    exact hpi.integralRule
  case false =>
    cases i with
    | ctrlTick => exact integralRule_of_tick ht fun h => hhands ⟨rfl, h⟩
    | reset =>
      obtain ⟨_, rfl⟩ := resetSequence_next ht
      exact .inr (.inl rfl)
    | nop | hallIn | ovfTick | clkAdv => cases ht; exact .inl rfl
    | regRead idx => cases ht; exact .inl (congrArg Pi.integral (regRead_hostFrame f32Num idx s).pi)
    | regWrite idx data => cases ht; exact .inl (congrArg Pi.integral (regWrite_hostFrame f32Num idx data s).pi)
    | _ => cases hunit

/-- Settles O30: the rule of the integral, read of the PI before the operation or, in a handoff, of the PI it resets. -/
theorem integralMovesOnlyInsideLimits : Obligations.IntegralMovesOnlyInsideLimits := by
  intro i s t ht
  refine ⟨fun hhands => ?_, fun ⟨htick, hhands⟩ => ?_⟩
  · exact (integralRule_of_exec ht hhands).imp_right (.imp_right piInside_iff.mp)
  · subst htick
    rcases integralRule_of_handoff ht hhands with hzero | hzero | hin
    · exact .inl hzero
    · exact .inl hzero
    · exact .inr (piInside_iff.mp hin)

/-! ### The open-loop target (R215) -/

/-- At or below its minimum the period shrinks no further. -/
theorem olReached_olUpdate (dt : F32) {ol : Ol} (h : olReached f32Num ol = true) :
    olReached f32Num (olUpdate f32Num dt ol) = true := by
  by_cases hstep : fLt ol.period (fAdd ol.elapsed dt) = true
  · have hheld : shrinkPeriod f32Num ol = ol.period := by
      rw [shrinkPeriod_f32Num, fLt_eq_false_of_fLe h]
      rfl
    rw [olUpdate_step rfl hstep, hheld]
    exact h
  · rw [olUpdate_noStep rfl hstep]
    exact h

theorem olReached_of_tick {s t : State} (ht : exec .ctrlTick s = .next t) (h : olReached f32Num s.ol = true)
    (hrestart : ¬ restartsRamp s) : olReached f32Num t.ol = true := by
  cases tickBranch s with
  | disabled hen => exact absurd (.inl hen) hrestart
  | calFailed hen hcal hstatus => exact absurd (.inr ⟨hcal, hstatus⟩) hrestart
  | handoff hhands =>
    obtain rfl := next_unique ht (handoffSeedsAndDrives s hhands)
    exact h
  | pattern hen hmode hreq hno =>
    obtain rfl := next_unique ht (openLoopTickDrivesPattern s hen hmode hreq hno)
    exact olReached_olUpdate s.par.tCtrl h
  | closedLoop hen hmode hreq hvalid =>
    obtain rfl := next_unique ht (focTickDrivesSpeedLoop s hen hmode hreq hvalid)
    exact h
  | safetyStop hen hmode hreq hcause =>
    obtain rfl := next_unique ht (safetyStopZeroesDuties s hen hmode hreq hcause)
    simp only [apply_ite State.ol, recorded, ite_self]
    exact h
  | calRunning hen hcal hstatus =>
    obtain rfl := next_unique ht (calibrationTickDrivesCommand s hen hcal hstatus)
    rwa [calSession_ol]
  | calSucceeded hen hcal hstatus =>
    obtain rfl := next_unique ht (calibrationSuccessAppliesOffset s hen hcal hstatus)
    rwa [calSession_ol]

theorem olReached_of_exec {i : Instr} {s t : State} (ht : exec i s = .next t) (h : olReached f32Num s.ol = true)
    (hinit : i ≠ .olInit) (holReset : i ≠ .olReset) (hreset : i ≠ .reset) (hrestart : ¬ (i = .ctrlTick ∧ restartsRamp s)) :
    olReached f32Num t.ol = true := by
  cases hunit : i.testPortOnly
  case true =>
    obtain ⟨-, -, hol⟩ := exec_unitEffect hunit ht
    generalize t.ol = ol at hol
    cases hol with
    | kept => exact h
    | advanced dt => exact olReached_olUpdate dt h
    | started hi => exact absurd hi hinit
    | restarted hi => exact absurd hi holReset
  case false =>
    cases i with
    | reset => exact absurd rfl hreset
    | ctrlTick => exact olReached_of_tick ht h fun hr => hrestart ⟨rfl, hr⟩
    | nop | hallIn | ovfTick | clkAdv => cases ht; exact h
    | regRead idx => cases ht; rwa [(regRead_hostFrame f32Num idx s).ol]
    | regWrite idx data => cases ht; rwa [(regWrite_hostFrame f32Num idx data s).ol]
    | _ => cases hunit

/-- Settles O34: an operation that does not restart the ramp keeps it or advances it. -/
theorem targetStaysReached : Obligations.TargetStaysReached :=
  ⟨fun _ _ _ ht h hinit holReset hreset hrestart => olReached_of_exec ht h hinit holReset hreset hrestart,
    fun dt _ h => olReached_olUpdate dt h⟩

/-! ### EST.dir_inv (41_estimator R144) -/

/-- The state with EST.dir_inv put to `b`. -/
def withDirInv (b : Bool) (s : State) : State := { s with est := { s.est with dirInv := b } }

theorem estUpdate_dirInv (par : Par) (cfg : Cfg) (snap : Snapshot) (e : Est) (b : Bool) :
    estUpdate f32Num par cfg snap { e with dirInv := b } = { estUpdate f32Num par cfg snap e with dirInv := b } := by
  unfold estUpdate
  cases snapshotIndex par snap <;> rfl

/-- The estimator's update in a tick neither reads nor writes the flag. -/
theorem tickEst_withDirInv (b : Bool) (s : State) :
    estUpdate f32Num (withDirInv b s).par (withDirInv b s).cfg (tickSnapshot (withDirInv b s)) (withDirInv b s).est =
      { estUpdate f32Num s.par s.cfg (tickSnapshot s) s.est with dirInv := b } :=
  estUpdate_dirInv s.par s.cfg (tickSnapshot s) s.est b

theorem liveEst_withDirInv (b : Bool) (s : State) :
    estUpdate f32Num (withDirInv b s).par (withDirInv b s).cfg (liveSnapshot (withDirInv b s).cap) (withDirInv b s).est =
      { estUpdate f32Num s.par s.cfg (liveSnapshot s.cap) s.est with dirInv := b } :=
  estUpdate_dirInv s.par s.cfg (liveSnapshot s.cap) s.est b

theorem calSession_withDirInv (b : Bool) (s : State) : calSession (withDirInv b s) = withDirInv b (calSession s) := by
  have hkept : (withDirInv b s).co.calReq = s.co.calReq := rfl
  cases hreq : s.co.calReq <;> simp only [calSession, tickEst_withDirInv, hkept, hreq] <;> rfl

theorem tick_forgetDirInv {b : Bool} {s t t' : State} (ht : exec .ctrlTick s = .next t)
    (ht' : exec .ctrlTick (withDirInv b s) = .next t') : forgetDirInv t = forgetDirInv t' := by
  cases tickBranch s with
  | disabled hen =>
    obtain rfl := next_unique ht (disabledTickShutsDown s hen)
    obtain rfl := next_unique ht' (disabledTickShutsDown (withDirInv b s) hen)
    have hhreg : (withDirInv b s).hreg = s.hreg := rfl
    cases hset : s.hreg.en <;> simp only [hhreg, hset] <;> rfl
  | handoff hhands =>
    obtain rfl := next_unique ht (handoffSeedsAndDrives s hhands)
    obtain rfl := next_unique ht' (handoffSeedsAndDrives (withDirInv b s) hhands)
    simp only [tickEst_withDirInv]
    rfl
  | pattern hen hmode hreq hno =>
    obtain rfl := next_unique ht (openLoopTickDrivesPattern s hen hmode hreq hno)
    obtain rfl := next_unique ht' (openLoopTickDrivesPattern (withDirInv b s) hen hmode hreq hno)
    simp only [tickEst_withDirInv]
    rfl
  | closedLoop hen hmode hreq hvalid =>
    obtain rfl := next_unique ht (focTickDrivesSpeedLoop s hen hmode hreq hvalid)
    obtain rfl := next_unique ht' (focTickDrivesSpeedLoop (withDirInv b s) hen hmode hreq hvalid)
    simp only [tickEst_withDirInv]
    rfl
  | safetyStop hen hmode hreq hcause =>
    obtain rfl := next_unique ht (safetyStopZeroesDuties s hen hmode hreq hcause)
    obtain rfl := next_unique ht' (safetyStopZeroesDuties (withDirInv b s) hen hmode hreq hcause)
    have hsnap : tickSnapshot (withDirInv b s) = tickSnapshot s := rfl
    simp only [tickEst_withDirInv]
    rw [hsnap]
    by_cases htimeout : (tickSnapshot s).timedOut = true <;>
      by_cases hcode : (tickSnapshot s).raw = 0#3 ∨ (tickSnapshot s).raw = 7#3 <;>
      simp only [htimeout, hcode, ↓reduceIte] <;> rfl
  | calRunning hen hcal hstatus =>
    obtain rfl := next_unique ht (calibrationTickDrivesCommand s hen hcal hstatus)
    obtain rfl := next_unique ht' (calibrationTickDrivesCommand (withDirInv b s) hen hcal hstatus)
    simp only [calSession_withDirInv]
    rfl
  | calSucceeded hen hcal hstatus =>
    obtain rfl := next_unique ht (calibrationSuccessAppliesOffset s hen hcal hstatus)
    obtain rfl := next_unique ht' (calibrationSuccessAppliesOffset (withDirInv b s) hen hcal hstatus)
    simp only [calSession_withDirInv]
    rfl
  | calFailed hen hcal hstatus =>
    obtain rfl := next_unique ht (calibrationFailureReverts s hen hcal hstatus)
    obtain rfl := next_unique ht' (calibrationFailureReverts (withDirInv b s) hen hcal hstatus)
    simp only [calSession_withDirInv]
    rfl

section UnitAgree

variable {s s' : State} {body body' : State → State}

theorem unitOp_agreeUpTo_forgetDirInv (hstate : forgetDirInv s = forgetDirInv s')
    (hbody : forgetDirInv (body s) = forgetDirInv (body' s')) :
    agreeUpTo forgetDirInv (unitOp body s) (unitOp body' s') := by
  have hport : (forgetDirInv s).par.testPortEn = (forgetDirInv s').par.testPortEn := by rw [hstate]
  cases hen : s.par.testPortEn
  · rw [unitOp_disabled body s hen, unitOp_disabled body' s' (hport.symm.trans hen)]
    exact congrArg (raiseFault .illegalOp) hstate
  · rw [unitOp_enabled body s hen, unitOp_enabled body' s' (hport.symm.trans hen)]
    exact hbody

theorem checked_forgetDirInv (ok : Bool) (hstate : forgetDirInv s = forgetDirInv s')
    (hbody : forgetDirInv (body s) = forgetDirInv (body' s')) :
    forgetDirInv (checked ok body s) = forgetDirInv (checked ok body' s') := by
  cases ok
  · exact congrArg (raiseFault .badValue) hstate
  · exact hbody

end UnitAgree

theorem forgetDirInv_withDirInv (b : Bool) (s : State) : forgetDirInv s = forgetDirInv (withDirInv b s) := rfl

theorem exec_unit_agreeUpTo_forgetDirInv {i : Instr} (hunit : i.testPortOnly = true) (b : Bool) (s : State) :
    agreeUpTo forgetDirInv (exec i s) (exec i (withDirInv b s)) := by
  have hstate := forgetDirInv_withDirInv b s
  cases i with
  | nop | hallIn | ovfTick | clkAdv | ctrlTick | regRead | regWrite | reset => cases hunit
  | estUpdate =>
    simp only [exec, execEstUpdate, opEstUpdate]
    refine unitOp_agreeUpTo_forgetDirInv hstate ?_
    simp only [liveEst_withDirInv]
    rfl
  | estReset | piReset | olReset | olReached | olRpm =>
    simp only [exec, execEstReset, opEstReset, execPiReset, opPiReset, execOlReset, opOlReset,
      execOlReached, opOlReached, execOlRpm, opOlRpm]
    exact unitOp_agreeUpTo_forgetDirInv hstate rfl
  | _ =>
    simp only [exec, execEstSeedFilter, opEstSeedFilter, execEstSetOffset, opEstSetOffset, execInvPark, opInvPark,
      execInvClarke, opInvClarke, execLimitV, opLimitV, execSvpwm, opSvpwm, execPiUpdate, opPiUpdate, execPiSetGains,
      opPiSetGains, execPiSetLimits, opPiSetLimits, execPiSetSym, opPiSetSym, execOlInit, opOlInit, execOlUpdate, opOlUpdate,
      execRampUpdate, opRampUpdate, execRampSeed, opRampSeed]
    exact unitOp_agreeUpTo_forgetDirInv hstate (checked_forgetDirInv _ hstate rfl)

/-- What a host access does is read off the registers, none of which shows the flag. -/
theorem regRead_forgetDirInv (idx : BitVec 8) (b : Bool) (s : State) :
    forgetDirInv (regRead f32Num idx s) = forgetDirInv (regRead f32Num idx (withDirInv b s)) := by
  have hview : view f32Num (withDirInv b s) idx = view f32Num s idx := by
    unfold view
    split <;> rfl
  cases hv : view f32Num s idx with
  | none => rw [regRead_of_reserved hv, regRead_of_reserved (hview.trans hv)]; rfl
  | some w => rw [regRead_of_view hv, regRead_of_view (hview.trans hv)]; rfl

theorem regWrite_forgetDirInv (idx : BitVec 8) (data : Word) (b : Bool) (s : State) :
    forgetDirInv (regWrite f32Num idx data s) = forgetDirInv (regWrite f32Num idx data (withDirInv b s)) := by
  have hstate := forgetDirInv_withDirInv b s
  unfold regWrite
  split
  case h_1 =>
    rw [writeCtrl_eq, writeCtrl_eq]
    rfl
  case h_2 | h_3 | h_4 | h_5 => exact checked_forgetDirInv _ hstate rfl
  all_goals rfl

/-- Settles O19: no unit operation, tick or host access reads the flag, and RESET overwrites it. -/
theorem dirInvHasNoEffect : Obligations.DirInvHasNoEffect := by
  intro i s b
  change agreeUpTo forgetDirInv (exec i s) (exec i (withDirInv b s))
  cases hunit : i.testPortOnly
  case true => exact exec_unit_agreeUpTo_forgetDirInv hunit b s
  case false =>
    cases i with
    | nop | hallIn | ovfTick | clkAdv => rfl
    | ctrlTick => exact tick_forgetDirInv (b := b) (s := s) rfl rfl
    | regRead idx => exact regRead_forgetDirInv idx b s
    | regWrite idx data => exact regWrite_forgetDirInv idx data b s
    | reset =>
      have hsame : exec .reset (withDirInv b s) = exec .reset s := rfl
      rw [hsame]
      rcases resetSequence_cases f32Num s.par s.cap.hallLines s.env with ⟨_, h⟩ | ⟨_, h⟩ <;> rw [exec_reset, h] <;> rfl
    | _ => cases hunit

end Sys2Proof.Machine

/-! ## The invariant of the reachable states (10_state section 2)

The invariant record by record: what each record's writers keep of it, then that every operation does, by its effects on the
records. -/

namespace Sys2Proof.Machine

open Sys2Proof.Safety

/-! ### The invariant of each record -/

/-- EST.base counts whole turns of six steps, below the electrical turns of a mechanical one (10_state R24). -/
def EstOk (cfg : Cfg) (e : Est) : Prop := e.base < n6 cfg ∧ e.base % 6 = 0

/-- The parameters stored in OL passed OL_INIT's check (45_openloop R213). -/
def OlOk (ol : Ol) : Prop := olParamsOk f32Num ol.initRpm ol.targetRpm ol.accel ol.duty = true

/-- The fault record holds only the causes raised, and its last code is one of them (60_exceptions R281). -/
structure FaultsOk (co : Co) : Prop where
  bits : co.fault &&& 0xFF01#16 = 0#16
  last : co.lastFault.toNat ≤ 7
  none : co.lastFault = 0#4 → co.fault = 0#16

/-- The duties lie in the range, and a disabled port is off (10_state R29). -/
structure PwmOk (maxDuty : Nat) (p : Pwm) : Prop where
  u : p.dutyU ≤ maxDuty
  v : p.dutyV ≤ maxDuty
  w : p.dutyW ≤ maxDuty
  off : p.moe = false → p = pwmOffPort

/-- The timeout and the widths of the capture (10_state R23). -/
structure CapOk (par : Par) (c : Cap) : Prop where
  timeout : c.timedOut = decide (par.stallLimit < c.stallCount)
  period_zero : c.timedOut = true → c.periodCycles = 0
  cnt : c.cnt < 2 ^ par.wCnt
  period : c.periodCycles < 2 ^ par.wCnt
  tb : c.tb < 2 ^ par.wTs
  timestamp : c.captureTimestamp < 2 ^ par.wTs
  stall : c.stallCount < 2 ^ par.wStall

/-- A torque in [0.1, 0.5] (10_state R38). -/
def TorqueOk (v : F32) : Prop := between f32Num 0x3DCCCCCD#32 v 0x3F000000#32 = true

theorem inv_iff {s : State} :
    Inv s ↔ cfgValid f32Num s.par.wDuty s.cfg = true ∧ EstOk s.cfg s.est ∧ fLt s.pi.outMin s.pi.outMax = true ∧ OlOk s.ol ∧
      FaultsOk s.co ∧ (TorqueOk s.hreg.calTorque ∧ TorqueOk s.co.calTorqueReq ∧ fIsFinite s.hreg.targetRpm = true) ∧
      PwmOk s.cfg.maxDuty s.pwm ∧ CapOk s.par s.cap :=
  ⟨fun h => ⟨h.cfg_valid, ⟨h.base_lt, h.base_mod⟩, h.limits, h.ol_params, ⟨h.fault_bits, h.last_fault, h.no_fault⟩,
      ⟨h.torque, h.torque_req, h.target⟩, ⟨h.duty_u, h.duty_v, h.duty_w, h.pwm_off⟩,
      ⟨h.timed_out, h.timeout_period, h.cnt_lt, h.period_lt, h.tb_lt, h.timestamp_lt, h.stall_lt⟩⟩,
    fun ⟨hcfg, hest, hpi, hol, hfaults, ⟨htorque, hreq, htarget⟩, hpwm, hcap⟩ =>
      ⟨hcfg, hest.1, hest.2, hpi, hol, hfaults.bits, hfaults.last, hfaults.none, htorque, hreq, htarget, hpwm.u, hpwm.v, hpwm.w,
        hpwm.off, hcap.timeout, hcap.period_zero, hcap.cnt, hcap.period, hcap.tb, hcap.timestamp, hcap.stall⟩⟩

/-! ### EST (41_estimator R133) -/

section EstKept

variable {cfg : Cfg} {e : Est}

/-- Six steps up or down, modulo a multiple of six. -/
theorem baseAfter_ok {n6 base : Nat} (hlt : base < n6) (hmod : base % 6 = 0) (hdvd : 6 ∣ n6) (prev : Option (Fin 6))
    (idx : Fin 6) : baseAfter n6 prev idx base < n6 ∧ baseAfter n6 prev idx base % 6 = 0 := by
  have hpos : 0 < n6 := by omega
  have hwrap (x : Nat) (hx : x % 6 = 0) : x % n6 < n6 ∧ x % n6 % 6 = 0 :=
    ⟨Nat.mod_lt x hpos, by rw [Nat.mod_mod_of_dvd x hdvd, hx]⟩
  unfold baseAfter
  split
  · exact ⟨hlt, hmod⟩
  · split
    · exact hwrap _ (by omega)
    · split
      · exact hwrap _ (by omega)
      · exact ⟨hlt, hmod⟩

theorem EstOk.estUpdate (h : EstOk cfg e) (par : Par) (snap : Snapshot) : EstOk cfg (estUpdate f32Num par cfg snap e) := by
  cases hidx : snapshotIndex par snap with
  | none =>
    rw [estUpdate_noIndex hidx]
    exact h
  | some idx =>
    rw [estUpdate_index hidx rfl rfl rfl rfl rfl]
    exact baseAfter_ok h.1 h.2 (Nat.dvd_mul_right 6 cfg.polePairs) e.prevIndex idx

theorem EstOk.estReset (h : EstOk cfg e) : EstOk cfg (estReset f32Num e) :=
  ⟨Nat.lt_of_le_of_lt (Nat.zero_le _) h.1, rfl⟩

end EstKept

theorem EstEffect.estOk {s : State} {e : Est} (h : EstEffect s e) (hs : EstOk s.cfg s.est) : EstOk s.cfg e := by
  cases h with
  | updated => exact hs.estUpdate s.par _
  | restarted => exact hs.estReset
  | kept | seeded | calibrated => exact hs

/-! ### PI and OL (44_pi R193, R194; 45_openloop R213) -/

theorem PiEffect.limitsOk {s : State} {p : Pi} (h : PiEffect s p) (hs : fLt s.pi.outMin s.pi.outMax = true) :
    fLt p.outMin p.outMax = true := by
  cases h with
  | limits hlimits => exact hlimits
  | kept | updated | cleared | gains => exact hs

theorem OlOk.olUpdate {ol : Ol} (h : OlOk ol) (dt : F32) : OlOk (olUpdate f32Num dt ol) := by
  by_cases hstep : fLt ol.period (fAdd ol.elapsed dt) = true
  · rw [olUpdate_step rfl hstep]
    exact h
  · rw [olUpdate_noStep rfl hstep]
    exact h

theorem OlEffect.olOk {i : Instr} {s : State} {ol : Ol} (h : OlEffect i s ol) (hs : OlOk s.ol) : OlOk ol := by
  cases h with
  | advanced dt => exact hs.olUpdate dt
  | started _ hok => exact hok
  | kept | restarted => exact hs

/-! ### The fault record (60_exceptions R281, R283, R284) -/

theorem FaultsOk.raised {co : Co} (h : FaultsOk co) (c : Cause) : FaultsOk (coRaise c co) := by
  have hbit : (1#16 <<< (causeCode c).toNat) &&& 0xFF01#16 = 0#16 := by cases c <;> rfl
  refine ⟨?bits, ?last, ?none⟩
  case bits =>
    change (co.fault ||| 1#16 <<< (causeCode c).toNat) &&& 0xFF01#16 = 0#16
    rw [BitVec.and_comm, BitVec.and_or_distrib_left, BitVec.and_comm, h.bits, BitVec.and_comm, hbit, BitVec.or_zero]
  case last =>
    rw [coRaise_lastFault]
    cases c <;> decide
  case none =>
    intro hnone
    cases c <;> cases hnone

theorem FaultsOk.cleared {co : Co} (h : FaultsOk co) (mask : BitVec 16) : FaultsOk { co with fault := co.fault &&& mask } := by
  refine ⟨?bits, h.last, fun hnone => ?none⟩
  case bits =>
    change co.fault &&& mask &&& 0xFF01#16 = 0#16
    rw [BitVec.and_assoc, BitVec.and_comm mask, ← BitVec.and_assoc, h.bits, BitVec.zero_and]
  case none =>
    change co.fault &&& mask = 0#16
    rw [h.none hnone, BitVec.zero_and]

theorem FaultsOk.recorded {s : State} (h : FaultsOk s.co) (c : Cause) : FaultsOk (recorded (causeCode c).toNat s).co := by
  rw [← raiseFault_eq_recorded]
  exact h.raised c

theorem FaultsOk.recordedIf {s : State} (h : FaultsOk s.co) (p : Prop) [Decidable p] (c : Cause) :
    FaultsOk (if p then Safety.recorded (causeCode c).toNat s else s).co := by
  split
  · exact h.recorded c
  · exact h

/-- A session takes the request, and records no fault before the Calibrator answers. -/
theorem FaultsOk.calSession {s : State} (h : FaultsOk s.co) : FaultsOk (calSession s).co := by
  cases hreq : s.co.calReq <;> simp only [Safety.calSession, hreq] <;> exact ⟨h.bits, h.last, h.none⟩

/-! ### The PWM port (43_svpwm R175, 45_openloop R217, 46_coordinator R234, R245) -/

theorem pwmOk_off (maxDuty : Nat) : PwmOk maxDuty pwmOffPort :=
  ⟨Nat.zero_le _, Nat.zero_le _, Nat.zero_le _, fun _ => rfl⟩

theorem pwmOk_driven (s : State) (vdc vd vq theta : F32) : PwmOk s.cfg.maxDuty (driven s vdc vd vq theta) :=
  ⟨clampRound_le _ _, clampRound_le _ _, clampRound_le _ _, nofun⟩

theorem pwmOk_olPattern (cfg : Cfg) (ol : Ol) : PwmOk cfg.maxDuty (olPattern f32Num cfg ol) := by
  have hhigh : highDuty f32Num cfg ol ≤ cfg.maxDuty := clampRound_le _ _
  have hduty (p : Prop) [Decidable p] : (if p then highDuty f32Num cfg ol else 0) ≤ cfg.maxDuty := by
    split
    · exact hhigh
    · exact Nat.zero_le _
  exact ⟨hduty _, hduty _, hduty _, nofun⟩

/-- The safety stop keeps the enables, so a port that was off stays so. -/
theorem PwmOk.zeroed {maxDuty : Nat} {p : Pwm} (h : PwmOk maxDuty p) :
    PwmOk maxDuty { p with dutyU := 0, dutyV := 0, dutyW := 0 } := by
  refine ⟨Nat.zero_le _, Nat.zero_le _, Nat.zero_le _, fun hoff => ?_⟩
  rw [h.off hoff]
  rfl

/-! ### CAP (40_capture R111 to R113) -/

section CapKept

variable {par : Par} {c : Cap}

theorem capOk_reset (par : Par) (lines : HallCode) : CapOk par (capReset lines) := by
  constructor <;> simp [capReset]

theorem CapOk.hallIn (h : CapOk par c) (lines : HallCode) : CapOk par (capHallIn lines c) := by
  cases hedge : isEdge c.hallLines lines
  · rw [capHallIn_noEdge hedge]
    exact ⟨h.timeout, h.period_zero, h.cnt, h.period, h.tb, h.timestamp, h.stall⟩
  · rw [capHallIn_edge hedge]
    exact ⟨rfl, nofun, Nat.two_pow_pos _, h.cnt, h.tb, h.tb, Nat.two_pow_pos _⟩

theorem stallNext_lt {w n : Nat} (h : n < 2 ^ w) : stallNext w n < 2 ^ w := by
  unfold stallNext
  split <;> omega

theorem le_stallNext (w n : Nat) : n ≤ stallNext w n := by
  unfold stallNext
  split <;> omega

theorem CapOk.ovfTick (h : CapOk par c) : CapOk par (capOvfTick par c) := by
  by_cases hlimit : par.stallLimit < stallNext par.wStall c.stallCount
  · rw [capOvfTick_timeout hlimit]
    exact ⟨(decide_eq_true hlimit).symm, fun _ => rfl, h.cnt, Nat.two_pow_pos _, h.tb, h.timestamp, stallNext_lt h.stall⟩
  · rw [capOvfTick_noTimeout (Nat.le_of_not_lt hlimit)]
    have hbefore : ¬ par.stallLimit < c.stallCount := fun hlt => hlimit (Nat.lt_of_lt_of_le hlt (le_stallNext _ _))
    refine ⟨?_, h.period_zero, h.cnt, h.period, h.tb, h.timestamp, stallNext_lt h.stall⟩
    rw [decide_eq_false hlimit, ← decide_eq_false hbefore]
    exact h.timeout

theorem CapOk.clkAdv (h : CapOk par c) (n : BitVec 24) : CapOk par (capClkAdv par n c) :=
  ⟨h.timeout, h.period_zero, Nat.mod_lt _ (Nat.two_pow_pos _), h.period, Nat.mod_lt _ (Nat.two_pow_pos _), h.timestamp,
    h.stall⟩

theorem CapOk.captureStep (h : CapOk par c) (op : CaptureOp) : CapOk par (captureStep par op c) := by
  cases op with
  | hallIn lines => exact h.hallIn lines
  | ovfTick => exact h.ovfTick
  | clkAdv n => exact h.clkAdv n

theorem CapOk.captureAll (h : CapOk par c) (ops : List CaptureOp) : CapOk par (captureAll par ops c) :=
  captureAll_induct par (fun op _ hc => hc.captureStep op) ops c h

end CapKept

/-! ### A tick -/

/-- What the branch of a tick must keep; the rest of the invariant is kept by the latch, the snapshot and the frame. -/
structure BranchOk (s t : State) : Prop where
  est : EstOk s.cfg t.est
  ol : OlOk t.ol
  faults : FaultsOk t.co
  pwm : PwmOk s.cfg.maxDuty t.pwm

theorem calSession_est (s : State) :
    (calSession s).est = estUpdate f32Num s.par s.cfg (tickSnapshot s) s.est := by
  cases hreq : s.co.calReq <;> simp only [calSession, hreq]

theorem branchOk_of_tick {s t : State} (hs : BranchOk s s) (ht : exec .ctrlTick s = .next t) : BranchOk s t := by
  have hest := hs.est.estUpdate s.par (tickSnapshot s)
  have hsession : EstOk s.cfg (calSession s).est := by rw [calSession_est]; exact hest
  have hcalled := hs.faults.calSession
  cases tickBranch s with
  | disabled hen =>
    obtain rfl := next_unique ht (disabledTickShutsDown s hen)
    refine ⟨hs.est.estReset, hs.ol, ?_, pwmOk_off _⟩
    have hraised := hs.faults.raised .voltInhibit
    cases s.hreg.en
    · exact ⟨hs.faults.bits, hs.faults.last, hs.faults.none⟩
    · exact ⟨hraised.bits, hraised.last, hraised.none⟩
  | handoff hhands =>
    obtain rfl := next_unique ht (handoffSeedsAndDrives s hhands)
    exact ⟨hest, hs.ol, ⟨hs.faults.bits, hs.faults.last, hs.faults.none⟩, pwmOk_driven s _ _ _ _⟩
  | pattern hen hmode hreq hno =>
    obtain rfl := next_unique ht (openLoopTickDrivesPattern s hen hmode hreq hno)
    exact ⟨hest, hs.ol.olUpdate _, ⟨hs.faults.bits, hs.faults.last, hs.faults.none⟩, pwmOk_olPattern s.cfg _⟩
  | closedLoop hen hmode hreq hvalid =>
    obtain rfl := next_unique ht (focTickDrivesSpeedLoop s hen hmode hreq hvalid)
    exact ⟨hest, hs.ol, ⟨hs.faults.bits, hs.faults.last, hs.faults.none⟩, pwmOk_driven s _ _ _ _⟩
  | safetyStop hen hmode hreq hcause =>
    obtain rfl := next_unique ht (safetyStopZeroesDuties s hen hmode hreq hcause)
    have hlatched : FaultsOk (latched s).co := ⟨hs.faults.bits, hs.faults.last, hs.faults.none⟩
    have hstopped := (hlatched.recordedIf ((tickSnapshot s).timedOut = true) .captureTimeout).recordedIf
      ((tickSnapshot s).raw = 0#3 ∨ (tickSnapshot s).raw = 7#3) .hallInvalid
    refine ⟨hest, ?_, ⟨hstopped.bits, hstopped.last, hstopped.none⟩, hs.pwm.zeroed⟩
    simp only [apply_ite State.ol, Safety.recorded, ite_self]
    exact hs.ol
  | calRunning hen hcal hstatus =>
    obtain rfl := next_unique ht (calibrationTickDrivesCommand s hen hcal hstatus)
    refine ⟨hsession, ?_, ⟨hcalled.bits, hcalled.last, hcalled.none⟩, pwmOk_driven s _ _ _ _⟩
    rw [calSession_ol]
    exact hs.ol
  | calSucceeded hen hcal hstatus =>
    obtain rfl := next_unique ht (calibrationSuccessAppliesOffset s hen hcal hstatus)
    refine ⟨hsession, ?_, ⟨hcalled.bits, hcalled.last, hcalled.none⟩, pwmOk_driven s _ _ _ _⟩
    rw [calSession_ol]
    exact hs.ol
  | calFailed hen hcal hstatus =>
    obtain rfl := next_unique ht (calibrationFailureReverts s hen hcal hstatus)
    have hraised := hcalled.recorded .calFailed
    exact ⟨hsession.estReset, hs.ol, ⟨hraised.bits, hraised.last, hraised.none⟩, pwmOk_driven s _ _ _ _⟩

theorem inv_of_tick {s t : State} (hs : Inv s) (ht : exec .ctrlTick s = .next t) : Inv t := by
  obtain ⟨hcfg, hest, hlimits, hol, hfaults, ⟨htorque, hreq, htarget⟩, hpwm, hcap⟩ := inv_iff.mp hs
  have hframe := exec_ctrlTick_frame ht
  have hbranch := branchOk_of_tick ⟨hest, hol, hfaults, hpwm⟩ ht
  have hpar : t.par = s.par := hframe.par
  have hcfgEq : t.cfg = s.cfg := hframe.cfg
  refine inv_iff.mpr ⟨?cfg, ?est, ?limits, hbranch.ol, hbranch.faults, ⟨?torque, ?req, ?target⟩, ?pwm, ?cap⟩
  case cfg => rw [hpar, hcfgEq]; exact hcfg
  case est => rw [hcfgEq]; exact hbranch.est
  case limits => rw [hframe.outMin, hframe.outMax]; exact hlimits
  case torque => rw [hframe.hreg]; exact htorque
  case req => rw [hframe.torque]; exact hreq
  case target => rw [hframe.hreg]; exact htarget
  case pwm => rw [hcfgEq]; exact hbranch.pwm
  case cap =>
    have hsnap : t.cap = (takeSnapshot s.par (tickInput f32Num s.env) s.cap).2 := hframe.cap
    rw [hpar, hsnap, takeSnapshot_cap]
    exact hcap.captureAll _

/-! ### A host access (46_coordinator R252, R253) -/

/-- What a host access must keep; the rest of the invariant is in its frame. -/
structure AccessOk (t : State) : Prop where
  faults : FaultsOk t.co
  torque : TorqueOk t.hreg.calTorque
  torque_req : TorqueOk t.co.calTorqueReq
  target : fIsFinite t.hreg.targetRpm = true

theorem AccessOk.raised {s : State} (h : AccessOk s) (c : Cause) : AccessOk (raiseFault c s) :=
  ⟨h.faults.raised c, h.torque, h.torque_req, h.target⟩

theorem AccessOk.regRead {s : State} (h : AccessOk s) (idx : BitVec 8) : AccessOk (regRead f32Num idx s) := by
  cases hv : view f32Num s idx with
  | none =>
    rw [regRead_of_reserved hv]
    exact AccessOk.raised (s := returnValue 0#32 s) ⟨h.faults, h.torque, h.torque_req, h.target⟩ .illegalAccess
  | some w =>
    rw [regRead_of_view hv]
    exact ⟨h.faults, h.torque, h.torque_req, h.target⟩

/-- The written torque is clamped (10_state R38). -/
theorem torqueOk_clamp (v : F32) : TorqueOk (fClamp v 0x3DCCCCCD#32 0x3F000000#32) :=
  Bool.and_eq_true_iff.mpr (fClamp_between v (by decide))

theorem AccessOk.checked {s : State} (h : AccessOk s) {ok : Bool} {body : State → State}
    (hbody : ok = true → AccessOk (body s)) : AccessOk (checked ok body s) := by
  rcases checked_cases ok body s with ⟨hok, hrun⟩ | ⟨-, hbad⟩
  · rw [hrun]
    exact hbody hok
  · rw [hbad]
    exact h.raised .badValue

theorem AccessOk.regWrite {s : State} (h : AccessOk s) (idx : BitVec 8) (data : Word) :
    AccessOk (regWrite f32Num idx data s) := by
  unfold Machine.regWrite
  split
  case h_1 =>
    rw [writeCtrl_eq]
    cases data.getLsbD 1
    · exact ⟨h.faults, h.torque, h.torque_req, h.target⟩
    · exact ⟨⟨h.faults.bits, h.faults.last, h.faults.none⟩, h.torque, h.torque, h.target⟩
  case h_2 => exact h.checked fun hok => ⟨h.faults, h.torque, h.torque_req, hok⟩
  case h_3 | h_4 => exact h.checked fun _ => ⟨h.faults, h.torque, h.torque_req, h.target⟩
  case h_5 => exact h.checked fun _ => ⟨h.faults, torqueOk_clamp data, h.torque_req, h.target⟩
  case h_6 | h_7 | h_8 | h_9 => exact ⟨h.faults, h.torque, h.torque_req, h.target⟩
  case h_10 => exact ⟨h.faults.cleared _, h.torque, h.torque_req, h.target⟩
  case h_11 => exact h.raised .illegalAccess

theorem inv_of_access {s t : State} (hs : Inv s) (hframe : HostFrame s t) (ht : AccessOk s → AccessOk t) : Inv t := by
  obtain ⟨hcfg, hest, hlimits, hol, hfaults, ⟨htorque, hreq, htarget⟩, hpwm, hcap⟩ := inv_iff.mp hs
  obtain ⟨hfaults', htorque', hreq', htarget'⟩ := ht ⟨hfaults, htorque, hreq, htarget⟩
  rw [inv_iff, hframe.par, hframe.cfg, hframe.cap, hframe.est, hframe.pi, hframe.ol, hframe.pwm]
  exact ⟨hcfg, hest, hlimits, hol, hfaults', ⟨htorque', hreq', htarget'⟩, hpwm, hcap⟩

/-! ### Every other operation -/

theorem inv_raiseFault {s : State} (hs : Inv s) (c : Cause) : Inv (raiseFault c s) := by
  obtain ⟨hcfg, hest, hlimits, hol, hfaults, hhost, hpwm, hcap⟩ := inv_iff.mp hs
  exact inv_iff.mpr ⟨hcfg, hest, hlimits, hol, hfaults.raised c, hhost, hpwm, hcap⟩

theorem inv_withCap {s : State} (hs : Inv s) {c : Cap} (hc : CapOk s.par s.cap → CapOk s.par c) : Inv (s.withCap c) := by
  obtain ⟨hcfg, hest, hlimits, hol, hfaults, hhost, hpwm, hcap⟩ := inv_iff.mp hs
  exact inv_iff.mpr ⟨hcfg, hest, hlimits, hol, hfaults, hhost, hpwm, hc hcap⟩

/-- The waiting words are not in the invariant. -/
theorem inv_withStream {s : State} (hs : Inv s) (rest : List Word) : Inv (s.withStream rest) := by
  obtain ⟨hcfg, hest, hlimits, hol, hfaults, hhost, hpwm, hcap⟩ := inv_iff.mp hs
  exact inv_iff.mpr ⟨hcfg, hest, hlimits, hol, hfaults, hhost, hpwm, hcap⟩

theorem inv_of_unit {i : Instr} {s t : State} (hs : Inv s) (hunit : i.testPortOnly = true) (ht : exec i s = .next t) :
    Inv t := by
  obtain ⟨hcfg, hest, hlimits, hol, hfaults, hhost, hpwm, hcap⟩ := inv_iff.mp hs
  obtain ⟨hest', hlimits', hol'⟩ := exec_unitEffect hunit ht
  rcases exec_unit_cases hunit ht with hframe | rfl | rfl
  · rw [inv_iff, hframe.par, hframe.cfg, hframe.cap, hframe.co, hframe.pwm, hframe.hreg]
    exact ⟨hcfg, hest'.estOk hest, hlimits'.limitsOk hlimits, hol'.olOk hol, hfaults, hhost, hpwm, hcap⟩
  · exact inv_raiseFault hs .illegalOp
  · exact inv_raiseFault hs .badValue

/-! ### The reset state (10_state R55) -/

/-- The ranges of 00_scope R7 that the invariant reads off a sampled configuration. -/
theorem ranges_of_cfgValid {wDuty : Nat} {cfg : Cfg} (h : cfgValid f32Num wDuty cfg = true) :
    1 ≤ cfg.polePairs ∧ fLt 0#32 cfg.piOutLimit = true ∧
      olParamsOk f32Num cfg.olInitRpm cfg.olTargetRpm cfg.olAccel cfg.olDuty = true ∧ TorqueOk cfg.calTorque := by
  simp only [cfgValid, Bool.and_eq_true, decide_eq_true_eq] at h
  obtain ⟨⟨⟨⟨⟨⟨⟨⟨⟨⟨⟨⟨hpoles, -⟩, -⟩, hlimit⟩, -⟩, -⟩, hinit⟩, htarget⟩, haccel⟩, hduty⟩, -⟩, -⟩, htorque⟩ := h
  exact ⟨hpoles.1, hlimit, by simp only [olParamsOk, hinit, htarget, haccel, hduty, Bool.and_self], htorque⟩

theorem inv_resetWith (par : Par) (cfg : Cfg) (legal : cfgValid f32Num par.wDuty cfg = true) (lines : HallCode) (env : Env) :
    Inv (State.resetWith f32Num par cfg legal lines env) := by
  obtain ⟨hpoles, hlimit, hol, htorque⟩ := ranges_of_cfgValid legal
  have hbase : 0 < 6 * cfg.polePairs := by omega
  have hzero : fIsFinite 0#32 = true := by decide
  have hfaults : FaultsOk (coPowerOn f32Num cfg) := ⟨BitVec.zero_and, Nat.zero_le _, fun _ => rfl⟩
  exact inv_iff.mpr ⟨legal, ⟨hbase, rfl⟩, fLt_fNeg_self hlimit, hol, hfaults, ⟨htorque, htorque, hzero⟩, pwmOk_off _,
    capOk_reset par lines⟩

theorem inv_of_resetSequence {par : Par} {lines : HallCode} {env : Env} {t : State}
    (ht : resetSequence f32Num par lines env = .next t) : Inv t := by
  obtain ⟨legal, rfl⟩ := resetSequence_next ht
  exact inv_resetWith par _ legal lines _

/-! ### The obligations -/

theorem inv_of_exec {i : Instr} {s t : State} (hs : Inv s) (ht : exec i s = .next t) : Inv t := by
  cases hunit : i.testPortOnly
  case true => exact inv_of_unit hs hunit ht
  case false =>
    cases i with
    | ctrlTick => exact inv_of_tick hs ht
    | reset => exact inv_of_resetSequence ht
    | nop => cases ht; exact hs
    | hallIn lines => cases ht; exact inv_withCap hs fun h => h.hallIn lines
    | ovfTick => cases ht; exact inv_withCap hs CapOk.ovfTick
    | clkAdv n => cases ht; exact inv_withCap hs fun h => h.clkAdv n
    | regRead idx => cases ht; exact inv_of_access hs (regRead_hostFrame f32Num idx s) fun h => h.regRead idx
    | regWrite idx data => cases ht; exact inv_of_access hs (regWrite_hostFrame f32Num idx data s) fun h => h.regWrite idx data
    | _ => cases hunit

/-- Settles O58: a step runs an operation, records an illegal word, or waits; each keeps the invariant. -/
theorem everyStepKeepsInv : Obligations.EveryStepKeepsInv := by
  intro s t hs ht
  cases hdec : decode s.env.stream with
  | instr i rest =>
    rw [step_of_instr hdec] at ht
    exact inv_of_exec (inv_withStream hs rest) ht
  | illegal why rest =>
    have hraise : step s = .next (raiseFault .illegalOp (s.withStream rest)) := step_of_illegal hdec
    rw [hraise] at ht
    cases ht
    exact inv_raiseFault (inv_withStream hs rest) .illegalOp
  | waiting =>
    rw [step_of_waiting hdec] at ht
    cases ht
    exact hs

/-- Settles O56: power-on is the reset sequence, which answers a state exactly for a record in its ranges. -/
theorem invHoldsAtPowerOn : Obligations.InvHoldsAtPowerOn := fun _ lines _ =>
  ⟨fun legal => ⟨_, resetSequence_legal lines legal, inv_resetWith _ _ legal lines _⟩, resetSequence_illegal lines⟩

/-- Settles O57: the default configuration is in its ranges. -/
theorem invHoldsAtReset : Obligations.InvHoldsAtReset := inv_resetWith _ _ defaultCfg_valid _ _

end Sys2Proof.Machine

/-! ## The values of the patterns, in their order (00_scope section 6)

A finite pattern stands at a place of the order, its magnitude with its sign, and its value is a strictly increasing function of that
place. So the order of the patterns is the order of their values. -/

namespace Sys2Proof.Machine

open Sys2Proof.Safety

/-! ### The value of a magnitude -/

/-- The value of the 31 bits below the sign, the exponent field above the 23 bits of the fraction. -/
noncomputable def magnitudeValue (m : Nat) : ℝ :=
  ((if m / 2 ^ 23 = 0 then m % 2 ^ 23 else m % 2 ^ 23 + 2 ^ 23 : Nat) : ℝ) * 2 ^ ((max (m / 2 ^ 23) 1 : Nat) - 150 : Int)

/-- A significand `n` whose last bit has the weight `2 ^ (k - 149)`; a full one carries into the exponent field. -/
theorem magnitudeValue_eq {k n : Nat} (hn : n ≤ 2 ^ 24) (hnormal : k = 0 ∨ 2 ^ 23 ≤ n) :
    magnitudeValue (k * 2 ^ 23 + n) = n * 2 ^ ((k : Int) - 149) := by
  unfold magnitudeValue
  by_cases hsub : n < 2 ^ 23
  · -- A subnormal significand: the exponent field is 0.
    obtain rfl : k = 0 := by omega
    have hquot : (0 * 2 ^ 23 + n) / 2 ^ 23 = 0 := by omega
    have hrem : (0 * 2 ^ 23 + n) % 2 ^ 23 = n := by omega
    rw [hquot, hrem, if_pos rfl]
    norm_num
  by_cases hfull : n = 2 ^ 24
  · subst hfull
    have hquot : (k * 2 ^ 23 + 2 ^ 24) / 2 ^ 23 = k + 2 := by omega
    have hrem : (k * 2 ^ 23 + 2 ^ 24) % 2 ^ 23 = 0 := by omega
    have hexp : ((max (k + 2) 1 : Nat) : Int) - 150 = (k - 149) + 1 := by omega
    rw [hquot, hrem, if_neg (by omega), hexp, zpow_add_one₀ two_ne_zero]
    push_cast
    ring
  · have hquot : (k * 2 ^ 23 + n) / 2 ^ 23 = k + 1 := by omega
    have hrem : (k * 2 ^ 23 + n) % 2 ^ 23 + 2 ^ 23 = n := by omega
    have hexp : ((max (k + 1) 1 : Nat) : Int) - 150 = k - 149 := by omega
    rw [hquot, hrem, if_neg (by omega), hexp]

/-- Every magnitude is such a significand, and not a full one. -/
theorem exists_significand (m : Nat) : ∃ k n : Nat, m = k * 2 ^ 23 + n ∧ n < 2 ^ 24 ∧ (k = 0 ∨ 2 ^ 23 ≤ n) := by
  by_cases h : m < 2 ^ 23
  · exact ⟨0, m, by omega, by omega, .inl rfl⟩
  · exact ⟨m / 2 ^ 23 - 1, m % 2 ^ 23 + 2 ^ 23, by omega, by omega, by omega⟩

theorem magnitudeValue_strictMono : StrictMono magnitudeValue := by
  refine strictMono_nat_of_lt_succ fun m => ?_
  obtain ⟨k, n, rfl, hn, hnormal⟩ := exists_significand m
  rw [add_assoc, magnitudeValue_eq hn.le hnormal, magnitudeValue_eq hn (by omega)]
  have hweight : (0 : ℝ) < 2 ^ ((k : Int) - 149) := by positivity
  push_cast
  linarith

theorem magnitudeValue_zero : magnitudeValue 0 = 0 := by simp [magnitudeValue]

/-! ### The value at a place of the order -/

/-- The value at a place of the order: the magnitude's, with the sign. -/
noncomputable def orderValue (z : Int) : ℝ := z.sign * magnitudeValue z.natAbs

theorem orderValue_natCast (m : Nat) : orderValue m = magnitudeValue m := by
  rcases Nat.eq_zero_or_pos m with rfl | hpos
  · simp [orderValue, magnitudeValue_zero]
  · simp [orderValue, Int.sign_natCast_of_ne_zero hpos.ne']

theorem orderValue_neg (z : Int) : orderValue (-z) = -orderValue z := by simp [orderValue]

theorem orderValue_strictMono : StrictMono orderValue := by
  refine strictMono_int_of_lt_succ fun z => ?_
  have hstep (m : Nat) : orderValue m < orderValue (m + 1) := by
    have := magnitudeValue_strictMono (Nat.lt_succ_self m)
    rwa [← orderValue_natCast, ← orderValue_natCast] at this
  rcases lt_or_ge z 0 with hneg | hpos
  · obtain ⟨m, hm⟩ := Int.eq_ofNat_of_zero_le (by omega : 0 ≤ -(z + 1))
    have hz : z = -((m : Int) + 1) := by omega
    have hz' : z + 1 = -(m : Int) := by omega
    rw [hz', hz, orderValue_neg, orderValue_neg]
    exact neg_lt_neg (hstep m)
  · obtain ⟨m, rfl⟩ := Int.eq_ofNat_of_zero_le hpos
    exact hstep m

/-! ### The value of a pattern -/

/-- The 31 bits below the sign. -/
def fMagnitude (x : F32) : Nat := (x.extractLsb' 0 31).toNat

theorem fExponent_eq_magnitude (x : F32) : fExponent x = fMagnitude x / 2 ^ 23 := by
  simp only [fExponent, fMagnitude, BitVec.extractLsb'_toNat, Nat.shiftRight_eq_div_pow]
  omega

theorem fFraction_eq_magnitude (x : F32) : fFraction x = fMagnitude x % 2 ^ 23 := by
  simp only [fFraction, fMagnitude, BitVec.extractLsb'_toNat, Nat.shiftRight_eq_div_pow]
  omega

theorem fOrder_eq (x : F32) : fOrder x = if fNegative x then -(fMagnitude x : Int) else fMagnitude x := rfl

theorem fMagnitude_lt (x : F32) : fMagnitude x < 2 ^ 31 := BitVec.isLt _

/-- The finite patterns are those below the infinities (10_state R35). -/
theorem fIsFinite_iff {x : F32} : fIsFinite x = true ↔ fMagnitude x < 0x7F800000 := by
  have := fMagnitude_lt x
  simp only [fIsFinite, bne_iff_ne, ne_eq, fExponent_eq_magnitude]
  omega

theorem fIsInf_iff {x : F32} : fIsInf x = true ↔ fMagnitude x = 0x7F800000 := by
  have := fMagnitude_lt x
  simp only [fIsInf, Bool.and_eq_true, beq_iff_eq, fExponent_eq_magnitude, fFraction_eq_magnitude]
  omega

/-- A pattern's rational value, as a real, is the value at its place of the order. -/
theorem fVal_eq_orderValue (x : F32) : (fVal x : ℝ) = orderValue (fOrder x) := by
  have hmagnitude : (fMantissa x : ℝ) * 2 ^ fScale x = magnitudeValue (fMagnitude x) := by
    rw [fMantissa, fScale, fExponent_eq_magnitude, fFraction_eq_magnitude, magnitudeValue]
  rw [fVal, fOrder_eq, fSigned]
  push_cast
  cases fNegative x
  · rw [if_neg Bool.false_ne_true, if_neg Bool.false_ne_true, orderValue_natCast, ← hmagnitude]
    push_cast
    rfl
  · rw [if_pos rfl, if_pos rfl, orderValue_neg, orderValue_natCast, ← hmagnitude]
    push_cast
    ring

/-- Settles O60: the value is strictly increasing in the place of the order, which the comparisons compare. -/
theorem comparisonIsByValue : Obligations.ComparisonIsByValue := by
  intro x y hx hy
  have hnan := fIsNaN_of_fIsFinite hx
  have hnan' := fIsNaN_of_fIsFinite hy
  constructor
  · rw [fLt_iff, ← orderValue_strictMono.lt_iff_lt, ← fVal_eq_orderValue, ← fVal_eq_orderValue, Rat.cast_lt]
    simp [hnan, hnan']
  · rw [fLe_iff, ← orderValue_strictMono.le_iff_le, ← fVal_eq_orderValue, ← fVal_eq_orderValue, Rat.cast_le]
    simp [hnan, hnan']

end Sys2Proof.Machine

/-! ## Rounding to nearest, ties to even (00_scope section 6; 30_encoding R103)

What it is to round a real to a magnitude, that a significand rounded to an integer gives it, and that the pattern formed from it,
an infinity from the overflow bound on, is the correctly rounded one. -/

namespace Sys2Proof.Machine

open Sys2Proof.Safety

/-! ### Rounding to an integer -/

/-- `n` is the integer nearest to `y`, the even one in a tie. -/
def RoundsToEven (y : ℝ) (n : Nat) : Prop := |(n : ℝ) - y| ≤ 1 / 2 ∧ (|(n : ℝ) - y| = 1 / 2 → Even n)

/-- An integer part and what is left of `y` above it, rounded by the rule: up above a half, and at a half from an odd integer. -/
theorem roundsToEven_of_parts {y r : ℝ} {q n : Nat} (hy : y = q + r) (h0 : 0 ≤ r) (h1 : r < 1)
    (hup : 1 / 2 < r ∨ r = 1 / 2 ∧ q % 2 = 1 → n = q + 1) (hdown : ¬ (1 / 2 < r ∨ r = 1 / 2 ∧ q % 2 = 1) → n = q) :
    RoundsToEven y n := by
  by_cases hcond : 1 / 2 < r ∨ r = 1 / 2 ∧ q % 2 = 1
  · obtain rfl := hup hcond
    have hdist : ((q + 1 : Nat) : ℝ) - y = 1 - r := by rw [hy]; push_cast; ring
    rw [RoundsToEven, hdist, abs_of_pos (by linarith)]
    refine ⟨by rcases hcond with h | ⟨h, -⟩ <;> linarith, fun htie => ?_⟩
    rcases hcond with h | ⟨-, hodd⟩
    · linarith
    · exact Nat.even_iff.mpr (by omega)
  · obtain rfl := hdown hcond
    have hdist : (n : ℝ) - y = -r := by rw [hy]; ring
    rw [RoundsToEven, hdist, abs_neg, abs_of_nonneg h0]
    rw [not_or, not_lt, not_and] at hcond
    exact ⟨hcond.1, fun htie => Nat.even_iff.mpr (by have := hcond.2 htie; omega)⟩

theorem roundEven_roundsToEven {y : ℝ} (hy : 0 ≤ y) : RoundsToEven y (roundEven y) := by
  have hfloor := Nat.floor_le hy
  have hlt := Nat.lt_floor_add_one y
  refine roundsToEven_of_parts (q := ⌊y⌋₊) (r := y - ⌊y⌋₊) (by ring) (by linarith) (by linarith) ?_ ?_
  · exact fun h => if_pos h
  · exact fun h => if_neg h

theorem shiftRightEven_roundsToEven (m : Nat) (d : Int) : RoundsToEven (m / 2 ^ d) (shiftRightEven m d) := by
  rcases le_or_gt d 0 with hd | hd
  · -- A shift to the left is exact.
    obtain ⟨k, hk⟩ := Int.eq_ofNat_of_zero_le (neg_nonneg.mpr hd)
    obtain rfl : d = -(k : Int) := by omega
    have hexact : ((shiftRightEven m (-(k : Int)) : Nat) : ℝ) - m / 2 ^ (-(k : Int)) = 0 := by
      simp [shiftRightEven]
    rw [RoundsToEven, hexact, abs_zero]
    norm_num
  · obtain ⟨k, rfl⟩ := Int.eq_ofNat_of_zero_le hd.le
    have hpow : (0 : ℝ) < 2 ^ k := by positivity
    have hparts : (m : ℝ) = (2 ^ k : Nat) * (m / 2 ^ k : Nat) + (m % 2 ^ k : Nat) := by exact_mod_cast (Nat.div_add_mod m (2 ^ k)).symm
    have hrem : ((m % 2 ^ k : Nat) : ℝ) < 2 ^ k := by exact_mod_cast Nat.mod_lt m (Nat.two_pow_pos k)
    have hhalf (x : Nat) : (1 / 2 < (x : ℝ) / 2 ^ k ↔ 2 * x > 2 ^ k) ∧ ((x : ℝ) / 2 ^ k = 1 / 2 ↔ 2 * x = 2 ^ k) := by
      rw [div_lt_div_iff₀ two_pos hpow, div_eq_div_iff hpow.ne' two_ne_zero, one_mul, mul_comm (x : ℝ) 2]
      exact ⟨by norm_cast, by norm_cast⟩
    have hshift : shiftRightEven m k =
        if 2 * (m % 2 ^ k) > 2 ^ k ∨ 2 * (m % 2 ^ k) = 2 ^ k ∧ m / 2 ^ k % 2 = 1 then m / 2 ^ k + 1 else m / 2 ^ k :=
      if_neg hd.not_ge
    rw [zpow_natCast]
    refine roundsToEven_of_parts (q := m / 2 ^ k) (r := (m % 2 ^ k : Nat) / 2 ^ k) ?_ (by positivity)
      ((div_lt_one hpow).mpr hrem) ?_ ?_
    · rw [hparts]
      push_cast
      field_simp
    · rw [(hhalf _).1, (hhalf _).2]
      exact fun h => hshift.trans (if_pos h)
    · rw [(hhalf _).1, (hhalf _).2]
      exact fun h => hshift.trans (if_neg h)

/-! ### Rounding to a magnitude -/

/-- `m` is the magnitude of the value nearest to `a` of all places of the order, an even one in a tie. Beyond the finite
magnitudes the order goes on as if the exponent field did. -/
def RoundsTo (a : ℝ) (m : Nat) : Prop :=
  ∀ j : Int, |orderValue m - a| ≤ |orderValue j - a| ∧ (|orderValue m - a| = |orderValue j - a| → j ≠ m → Even m)

/-- The nearer of the two places that bracket `a` is the nearest of all, and only these two can be in a tie. -/
theorem nearest_of_bracket {a : ℝ} {m i : Int} (hlo : orderValue m ≤ a) (hhi : a < orderValue (m + 1)) (hi : i = m ∨ i = m + 1)
    (hm : |orderValue i - a| ≤ |orderValue m - a|) (hm' : |orderValue i - a| ≤ |orderValue (m + 1) - a|) (j : Int) :
    |orderValue i - a| ≤ |orderValue j - a| ∧
      (|orderValue i - a| = |orderValue j - a| → j ≠ i → |orderValue m - a| = |orderValue (m + 1) - a|) := by
  have hbelow : |orderValue m - a| = a - orderValue m := by rw [abs_sub_comm, abs_of_nonneg (by linarith)]
  have habove : |orderValue (m + 1) - a| = orderValue (m + 1) - a := abs_of_pos (by linarith)
  rcases lt_trichotomy j m with hj | rfl | hj
  · have hfar : a - orderValue m < |orderValue j - a| := by
      have := orderValue_strictMono hj
      rw [abs_sub_comm, abs_of_nonneg (by linarith)]
      linarith
    exact ⟨by linarith, fun htie => by linarith⟩
  · refine ⟨hm, fun htie hne => ?_⟩
    obtain rfl := hi.resolve_left hne.symm
    exact htie.symm
  rcases eq_or_lt_of_le (Int.add_one_le_iff.mpr hj) with rfl | hj
  · refine ⟨hm', fun htie hne => ?_⟩
    obtain rfl := hi.resolve_right hne.symm
    exact htie
  · have hfar : orderValue (m + 1) - a < |orderValue j - a| := by
      have := orderValue_strictMono hj
      rw [abs_of_pos (by linarith)]
      linarith
    exact ⟨by linarith, fun htie => by linarith⟩

section Significand

variable {a y : ℝ} {k n : Nat}

theorem RoundsToEven.eq_floor_or (hn : RoundsToEven y n) (hy : 0 ≤ y) : n = ⌊y⌋₊ ∨ n = ⌊y⌋₊ + 1 := by
  obtain ⟨hdist, -⟩ := hn
  rw [abs_le] at hdist
  have hfloor := Nat.floor_le hy
  have hlt := Nat.lt_floor_add_one y
  have hupper : (n : ℝ) < (⌊y⌋₊ + 2 : Nat) := by push_cast; linarith
  have hlower : (⌊y⌋₊ : ℝ) < (n + 1 : Nat) := by push_cast; linarith
  have := Nat.cast_lt.mp hupper
  have := Nat.cast_lt.mp hlower
  omega

/-- A significand of 24 bits rounded to an integer gives the magnitude, also where it carries into the exponent field. -/
theorem roundsTo_of_significand (ha : a = y * 2 ^ ((k : Int) - 149)) (hy : 0 ≤ y) (hlt : y < 2 ^ 24)
    (hnormal : k = 0 ∨ 2 ^ 23 ≤ y) (hn : RoundsToEven y n) :
    RoundsTo a (k * 2 ^ 23 + n) ∧ magnitudeValue (k * 2 ^ 23 + n) = n * 2 ^ ((k : Int) - 149) := by
  have hweight : (0 : ℝ) < 2 ^ ((k : Int) - 149) := by positivity
  have hfloor := Nat.floor_le hy
  have hfloor' := Nat.lt_floor_add_one y
  have hfull : ⌊y⌋₊ < 2 ^ 24 := (Nat.floor_lt hy).mpr (by exact_mod_cast hlt)
  have hnormal' : k = 0 ∨ 2 ^ 23 ≤ ⌊y⌋₊ := hnormal.imp_right fun h => Nat.le_floor (by exact_mod_cast h)
  have hvalue (i : Nat) (hi : i = ⌊y⌋₊ ∨ i = ⌊y⌋₊ + 1) :
      magnitudeValue (k * 2 ^ 23 + i) = i * 2 ^ ((k : Int) - 149) :=
    magnitudeValue_eq (by omega) (by omega)
  have hplace (i : Nat) (hi : i = ⌊y⌋₊ ∨ i = ⌊y⌋₊ + 1) :
      orderValue ((k * 2 ^ 23 + i : Nat) : Int) - a = (i - y) * 2 ^ ((k : Int) - 149) := by
    rw [orderValue_natCast, hvalue i hi, ha]
    ring
  have hdist (i : Nat) (hi : i = ⌊y⌋₊ ∨ i = ⌊y⌋₊ + 1) :
      |orderValue ((k * 2 ^ 23 + i : Nat) : Int) - a| = |(i : ℝ) - y| * 2 ^ ((k : Int) - 149) := by
    rw [hplace i hi, abs_mul, abs_of_pos hweight]
  have hone := hn.eq_floor_or hy
  refine ⟨fun j => ?_, hvalue n hone⟩
  have hnext : (((k * 2 ^ 23 + ⌊y⌋₊ : Nat) : Int) + 1) = ((k * 2 ^ 23 + (⌊y⌋₊ + 1) : Nat) : Int) := by push_cast; ring
  have hbelow : |((⌊y⌋₊ : Nat) : ℝ) - y| = y - ⌊y⌋₊ := by rw [abs_sub_comm, abs_of_nonneg (by linarith)]
  have habove : |((⌊y⌋₊ + 1 : Nat) : ℝ) - y| = ⌊y⌋₊ + 1 - y := by rw [abs_of_pos (by push_cast; linarith)]; push_cast; ring
  have hhalf := hn.1
  have hcloser : |(n : ℝ) - y| ≤ |((⌊y⌋₊ : Nat) : ℝ) - y| ∧ |(n : ℝ) - y| ≤ |((⌊y⌋₊ + 1 : Nat) : ℝ) - y| := by
    rcases hone with h | h <;> rw [h] at hhalf ⊢ <;> rw [hbelow, habove] at * <;> constructor <;> linarith
  obtain ⟨hnearest, htied⟩ := nearest_of_bracket (a := a) (m := ((k * 2 ^ 23 + ⌊y⌋₊ : Nat) : Int))
    (i := ((k * 2 ^ 23 + n : Nat) : Int))
    (by
      have := hplace _ (.inl rfl)
      have : ((⌊y⌋₊ : Nat) - y) * (2 : ℝ) ^ ((k : Int) - 149) ≤ 0 := mul_nonpos_of_nonpos_of_nonneg (by linarith) hweight.le
      linarith)
    (by
      rw [hnext]
      have := hplace _ (.inr rfl)
      have : 0 < (((⌊y⌋₊ + 1 : Nat) : ℝ) - y) * (2 : ℝ) ^ ((k : Int) - 149) := mul_pos (by push_cast; linarith) hweight
      linarith)
    (by omega)
    (by rw [hdist n hone, hdist _ (.inl rfl)]; exact mul_le_mul_of_nonneg_right hcloser.1 hweight.le)
    (by rw [hnext, hdist n hone, hdist _ (.inr rfl)]; exact mul_le_mul_of_nonneg_right hcloser.2 hweight.le) j
  refine ⟨hnearest, fun htie hne => ?_⟩
  have hsame := htied htie hne
  rw [hnext, hdist _ (.inl rfl), hdist _ (.inr rfl), mul_left_inj' hweight.ne', hbelow, habove] at hsame
  have heven : Even n := hn.2 (by rcases hone with h | h <;> rw [h] <;> [rw [hbelow]; rw [habove]] <;> linarith)
  exact Even.add (Even.mul_left (by decide) k) heven

/-- The last bit stands 23 places below the first, but not below the last of the subnormals (00_scope section 6). -/
theorem roundsTo_of_log {first last : Int} (hle : (2 : ℝ) ^ first ≤ a) (hlt : a < 2 ^ (first + 1))
    (hlast : last = max (first - 23) (-149)) (hn : RoundsToEven (a / 2 ^ last) n) :
    RoundsTo a ((last + 149).toNat * 2 ^ 23 + n) ∧
      magnitudeValue ((last + 149).toNat * 2 ^ 23 + n) = n * 2 ^ last := by
  obtain ⟨k, rfl⟩ : ∃ k : Nat, last = k - 149 := ⟨(last + 149).toNat, by omega⟩
  have hk : ((k : Int) - 149 + 149).toNat = k := by omega
  have hweight : (0 : ℝ) < 2 ^ ((k : Int) - 149) := by positivity
  have hpow (i : Nat) : (2 : ℝ) ^ ((k : Int) - 149 + i) = 2 ^ i * 2 ^ ((k : Int) - 149) := by
    rw [zpow_add₀ two_ne_zero, zpow_natCast, mul_comm]
  have hpos : 0 < a := lt_of_lt_of_le (by positivity) hle
  have htop : a < 2 ^ 24 * 2 ^ ((k : Int) - 149) := by
    rw [← hpow 24]
    exact hlt.trans_le (zpow_le_zpow_right₀ one_le_two (by push_cast; omega))
  have hnormal : k = 0 ∨ 2 ^ 23 ≤ a / 2 ^ ((k : Int) - 149) := by
    rcases Nat.eq_zero_or_pos k with h | h
    · exact .inl h
    · refine .inr ((le_div_iff₀ hweight).mpr ?_)
      rw [← hpow 23]
      exact (zpow_le_zpow_right₀ one_le_two (by push_cast; omega)).trans hle
  rw [hk]
  exact roundsTo_of_significand (by field_simp) (by positivity) ((div_lt_iff₀ hweight).mpr htop) hnormal hn

end Significand

end Sys2Proof.Machine

/-! ## The pattern of a rounded value (00_scope section 6; 30_encoding R103) -/

namespace Sys2Proof.Machine

open Sys2Proof.Safety

/-! ### A pattern from its sign and magnitude -/

theorem fNegative_fBuild (s : Bool) (m : Nat) : fNegative (fBuild s m) = s := by
  rw [fNegative, fBuild, BitVec.msb_eq_getLsbD_last, BitVec.getLsbD_append]
  cases s <;> rfl

theorem fMagnitude_fBuild (s : Bool) {m : Nat} (h : m < 2 ^ 31) : fMagnitude (fBuild s m) = m := by
  rw [fMagnitude, fBuild, BitVec.extractLsb'_append_eq_right, BitVec.toNat_ofNat, Nat.mod_eq_of_lt h]

/-- The last bit of a pattern is that of its magnitude. -/
theorem getLsbD_zero_eq_false_iff (x : F32) : x.getLsbD 0 = false ↔ Even (fMagnitude x) := by
  have hbit : x.getLsbD 0 = (x.extractLsb' 0 31).getLsbD 0 := by simp
  rw [hbit, fMagnitude, BitVec.getLsbD, Nat.testBit_zero, decide_eq_false_iff_not, Nat.even_iff]
  omega

/-- A magnitude from 2^128 on is an infinity. -/
def ofMagnitude (s : Bool) (m : Nat) : F32 := if m < 0x7F800000 then fBuild s m else fInf s

theorem fNegative_ofMagnitude (s : Bool) (m : Nat) : fNegative (ofMagnitude s m) = s := by
  unfold ofMagnitude
  split
  · exact fNegative_fBuild s m
  · exact fNegative_fBuild s 0x7F800000

theorem fMagnitude_ofMagnitude (s : Bool) {m : Nat} (h : m < 0x7F800000) : fMagnitude (ofMagnitude s m) = m := by
  rw [ofMagnitude, if_pos h, fMagnitude_fBuild s (by omega)]

theorem fIsInf_ofMagnitude (s : Bool) {m : Nat} (h : ¬ m < 0x7F800000) : fIsInf (ofMagnitude s m) = true := by
  rw [ofMagnitude, if_neg h, fIsInf_iff, fInf, fMagnitude_fBuild s (by decide)]

/-! ### The overflow bound -/

section Overflow

variable {a : ℝ} {m : Nat}

theorem magnitudeValue_infinity : magnitudeValue 0x7F800000 = 2 ^ 128 := by
  rw [show (0x7F800000 : Nat) = 254 * 2 ^ 23 + 2 ^ 23 by norm_num, magnitudeValue_eq (by norm_num) (by norm_num)]
  norm_num

theorem magnitudeValue_largest : magnitudeValue 0x7F7FFFFF = 2 ^ 128 - 2 ^ 104 := by
  rw [show (0x7F7FFFFF : Nat) = 253 * 2 ^ 23 + (2 ^ 24 - 1) by norm_num, magnitudeValue_eq (by norm_num) (by norm_num)]
  norm_num

/-- What is nearer to the largest finite value than to 2^128 stays finite; the tie goes to the even 2^128. -/
theorem RoundsTo.lt_infinity_iff (h : RoundsTo a m) : m < 0x7F800000 ↔ a < 2 ^ 128 - 2 ^ 103 := by
  have hinf : orderValue ((0x7F800000 : Nat) : Int) = 2 ^ 128 := (orderValue_natCast _).trans magnitudeValue_infinity
  have hlargest : orderValue ((0x7F7FFFFF : Nat) : Int) = 2 ^ 128 - 2 ^ 104 :=
    (orderValue_natCast _).trans magnitudeValue_largest
  constructor
  · intro hm
    by_contra hge
    rw [not_lt] at hge
    have hmono : orderValue m ≤ orderValue ((0x7F7FFFFF : Nat) : Int) := orderValue_strictMono.monotone (by omega)
    rw [hlargest] at hmono
    obtain ⟨hnear, htie⟩ := h ((0x7F800000 : Nat) : Int)
    rw [hinf, abs_sub_comm, abs_of_nonneg (by norm_num at *; linarith)] at hnear htie
    rcases le_total a (2 ^ 128) with ha | ha
    · -- Only the bound itself, in a tie with the odd largest magnitude.
      rw [abs_of_nonneg (by linarith)] at hnear htie
      have heq : orderValue m = orderValue ((0x7F7FFFFF : Nat) : Int) := by
        rw [hlargest]
        norm_num at *
        linarith
      have hodd : m = 0x7F7FFFFF := by exact_mod_cast orderValue_strictMono.injective heq
      have heven : Even m := htie (by norm_num at *; linarith) (by omega)
      rw [hodd] at heven
      exact absurd heven (by decide)
    · rw [abs_of_nonpos (by linarith)] at hnear
      norm_num at *
      linarith
  · intro hlt
    by_contra hge
    have hmono : orderValue ((0x7F800000 : Nat) : Int) ≤ orderValue m := orderValue_strictMono.monotone (by omega)
    rw [hinf] at hmono
    obtain ⟨hnear, -⟩ := h ((0x7F7FFFFF : Nat) : Int)
    rw [hlargest, abs_of_nonneg (by norm_num at *; linarith)] at hnear
    rcases le_total a (2 ^ 128 - 2 ^ 104) with ha | ha
    · rw [abs_of_nonneg (by linarith)] at hnear
      norm_num at *
      linarith
    · rw [abs_of_nonpos (by linarith)] at hnear
      norm_num at *
      linarith

end Overflow

/-! ### The correctly rounded pattern -/

/-- `CorrectlyRounded` for a real value. -/
def RealCorrectlyRounded (v : ℝ) (r : F32) : Prop :=
  (|v| < 2 ^ 128 - 2 ^ 103 → fIsFinite r = true ∧
    ∀ z : F32, fIsFinite z = true → |(fVal r : ℝ) - v| ≤ |(fVal z : ℝ) - v| ∧
      (|(fVal r : ℝ) - v| = |(fVal z : ℝ) - v| → fVal r ≠ fVal z → r.getLsbD 0 = false)) ∧
  (2 ^ 128 - 2 ^ 103 ≤ |v| → fIsInf r = true) ∧
  (v ≠ 0 → (fNegative r = true ↔ v < 0))

theorem overflowBound_eq : (overflowBound : ℝ) = 2 ^ 128 - 2 ^ 103 := by norm_num [overflowBound]

theorem correctlyRounded_of_real {v : Rat} {r : F32} (h : RealCorrectlyRounded v r) : CorrectlyRounded v r := by
  obtain ⟨hfinite, hinf, hsign⟩ := h
  rw [← overflowBound_eq] at hfinite hinf
  refine ⟨fun hv => ?_, fun hv => hinf (by exact_mod_cast hv), fun hv => ?_⟩
  · obtain ⟨hr, hnear⟩ := hfinite (by exact_mod_cast hv)
    refine ⟨hr, fun z hz => ?_⟩
    exact_mod_cast hnear z hz
  · have hreal := hsign (by exact_mod_cast hv)
    rw [Rat.cast_lt_zero] at hreal
    exact Bool.eq_iff_iff.mpr (hreal.trans decide_eq_true_iff.symm)

/-- The place of a pattern in the order, the sign of `v` taken off. -/
noncomputable def placeFrom (v : ℝ) (x : F32) : Int := open Classical in if v < 0 then -fOrder x else fOrder x

theorem abs_fVal_sub (v : ℝ) (x : F32) : |(fVal x : ℝ) - v| = |orderValue (placeFrom v x) - (|v|)| := by
  rw [fVal_eq_orderValue, placeFrom]
  split
  · next hv => rw [abs_of_neg hv, orderValue_neg, ← abs_neg]; ring_nf
  · next hv => rw [abs_of_nonneg (not_lt.mp hv)]

theorem fVal_eq_of_placeFrom_eq {v : ℝ} {x y : F32} (h : placeFrom v x = placeFrom v y) : fVal x = fVal y := by
  have horder : fOrder x = fOrder y := by
    unfold placeFrom at h
    split at h
    · exact neg_injective h
    · exact h
  have hreal : (fVal x : ℝ) = fVal y := by rw [fVal_eq_orderValue, fVal_eq_orderValue, horder]
  exact_mod_cast hreal

theorem placeFrom_ofMagnitude {v : ℝ} {s : Bool} {m : Nat} (hs : s = true ↔ v < 0) (hm : m < 0x7F800000) :
    placeFrom v (ofMagnitude s m) = m := by
  rw [placeFrom, fOrder_eq, fNegative_ofMagnitude, fMagnitude_ofMagnitude s hm]
  by_cases hv : v < 0
  · rw [if_pos hv, if_pos (hs.mpr hv), neg_neg]
  · rw [if_neg hv, if_neg (mt hs.mp hv)]

theorem realCorrectlyRounded_of_roundsTo {v : ℝ} {s : Bool} {m : Nat} (hs : s = true ↔ v < 0) (h : RoundsTo |v| m) :
    RealCorrectlyRounded v (ofMagnitude s m) := by
  refine ⟨fun hlt => ?_, fun hge => ?_, fun _ => by rw [fNegative_ofMagnitude, hs]⟩
  · have hm : m < 0x7F800000 := h.lt_infinity_iff.mpr hlt
    have hmagnitude := fMagnitude_ofMagnitude s hm
    refine ⟨fIsFinite_iff.mpr (by omega), fun z _ => ?_⟩
    obtain ⟨hnear, htie⟩ := h (placeFrom v z)
    rw [abs_fVal_sub, abs_fVal_sub, placeFrom_ofMagnitude hs hm, getLsbD_zero_eq_false_iff, hmagnitude]
    refine ⟨hnear, fun heq hne => htie heq fun hplace => hne ?_⟩
    exact fVal_eq_of_placeFrom_eq ((placeFrom_ofMagnitude hs hm).trans hplace.symm)
  · exact fIsInf_ofMagnitude s (mt h.lt_infinity_iff.mp (not_lt.mpr hge))

/-! ### The two roundings of the model -/

theorem fVal_fZero (s : Bool) : (fVal (fZero s) : ℝ) = 0 := by
  have horder : fOrder (fZero s) = 0 := by cases s <;> decide
  rw [fVal_eq_orderValue, horder, orderValue, Int.sign_zero, Int.cast_zero, zero_mul]

/-- An exact zero is either of the zeros. -/
theorem realCorrectlyRounded_zero (s : Bool) : RealCorrectlyRounded 0 (fZero s) := by
  have hfinite : fIsFinite (fZero s) = true := by cases s <;> decide
  refine ⟨fun _ => ⟨hfinite, fun z _ => ?_⟩, fun h => ?_, fun h => absurd rfl h⟩
  · rw [fVal_fZero, sub_zero, abs_zero, sub_zero]
    refine ⟨abs_nonneg _, fun htie hne => absurd ?_ hne⟩
    have hz : (fVal z : ℝ) = 0 := abs_eq_zero.mp htie.symm
    have hs := fVal_fZero s
    exact_mod_cast hs.trans hz.symm
  · norm_num at h

/-- The rounding of the domain REAL (30_encoding R103). -/
theorem realBits32_correctlyRounded (x : ℝ) : RealCorrectlyRounded x (realBits32 x) := by
  by_cases hx : x = 0
  case pos =>
    rw [hx, realBits32, if_pos rfl]
    exact realCorrectlyRounded_zero false
  case neg =>
    have hpos : 0 < |x| := abs_pos.mpr hx
    have hn := roundEven_roundsToEven (y := |x| / 2 ^ max (Int.log 2 |x| - 23) (-149)) (by positivity)
    obtain ⟨hrounds, -⟩ := roundsTo_of_log (Int.zpow_log_le_self one_lt_two hpos)
      (Int.lt_zpow_succ_log_self one_lt_two |x|) rfl hn
    have hbits := realCorrectlyRounded_of_roundsTo (s := decide (x < 0)) decide_eq_true_iff hrounds
    rw [realBits32, if_neg hx]
    exact hbits

theorem fRound_zero (s : Bool) (e : Int) : fRound s 0 e = fZero s := rfl

/-- The magnitude `fRound` forms of a significand that is not 0. -/
theorem fRound_eq {m : Nat} (hm : m ≠ 0) (s : Bool) {e last : Int} (hlast : last = max (e + m.log2 - 23) (-149)) :
    fRound s m e = ofMagnitude s ((last + 149).toNat * 2 ^ 23 + shiftRightEven m (last - e)) := by
  subst hlast
  exact if_neg hm

theorem fNegative_fRound (s : Bool) (m : Nat) (e : Int) : fNegative (fRound s m e) = s := by
  by_cases hm : m = 0
  · rw [hm, fRound_zero]
    exact fNegative_fBuild s 0
  · rw [fRound_eq hm s rfl, fNegative_ofMagnitude]

section Rounded

variable {m : Nat} {e : Int} {v : ℝ} {s : Bool}

/-- A significand between two powers of 2, scaled. -/
theorem scaled_bounds {t : ℝ} {l : Nat} (hle : 2 ^ l ≤ t) (hlt : t < 2 ^ (l + 1)) :
    (2 : ℝ) ^ (e + l) ≤ t * 2 ^ e ∧ t * 2 ^ e < 2 ^ (e + l + 1) := by
  have hscale : (0 : ℝ) < 2 ^ e := by positivity
  have hpow (i : Nat) : (2 : ℝ) ^ (e + i) = 2 ^ i * 2 ^ e := by
    rw [zpow_add₀ two_ne_zero, zpow_natCast, mul_comm]
  have hsucc : e + (l : Int) + 1 = e + ((l + 1 : Nat) : Int) := by push_cast; ring
  rw [hsucc, hpow, hpow]
  exact ⟨mul_le_mul_of_nonneg_right hle hscale.le, mul_lt_mul_of_pos_right hlt hscale⟩

theorem scaled_div (t : ℝ) (e last : Int) : t * 2 ^ e / 2 ^ last = t / (2 : ℝ) ^ (last - e) := by
  rw [zpow_sub₀ two_ne_zero]
  field_simp

/-- The exact value `± m · 2 ^ e` is correctly rounded. -/
theorem fRound_correctlyRounded (hm : m ≠ 0) (hs : s = true ↔ v < 0) (hv : |v| = m * 2 ^ e) :
    RealCorrectlyRounded v (fRound s m e) := by
  have hlow : (2 : ℝ) ^ m.log2 ≤ m := by exact_mod_cast Nat.log2_self_le hm
  have hhigh : (m : ℝ) < 2 ^ (m.log2 + 1) := by exact_mod_cast Nat.lt_log2_self
  obtain ⟨hle, hlt⟩ := scaled_bounds (e := e) hlow hhigh
  rw [fRound_eq hm s rfl]
  refine realCorrectlyRounded_of_roundsTo hs ?_
  rw [hv]
  refine (roundsTo_of_log hle hlt rfl ?_).1
  rw [scaled_div]
  exact shiftRightEven_roundsToEven m _

/-- A last odd digit for all that is left behind it does not change the rounding two digits further up. -/
theorem RoundsToEven.of_sticky {q d n : Nat} {t : ℝ} (hd : 2 ≤ d) (hlo : 2 * (q : ℝ) < t) (hhi : t < 2 * (q : ℝ) + 2)
    (h : RoundsToEven ((2 * q + 1 : Nat) / 2 ^ (d : Int)) n) : RoundsToEven (t / 2 ^ (d : Int)) n := by
  obtain ⟨c, hc, hc0⟩ : ∃ c : Nat, (2 : ℝ) ^ (d : Int) = 4 * c ∧ 0 < (c : ℝ) := by
    refine ⟨2 ^ (d - 2), ?_, by positivity⟩
    obtain ⟨k, rfl⟩ := Nat.exists_eq_add_of_le hd
    rw [zpow_natCast, Nat.add_sub_cancel_left, pow_add]
    push_cast
    norm_num
  rw [hc] at h ⊢
  have hpos : 0 < 4 * (c : ℝ) := by positivity
  obtain ⟨hbelow, habove⟩ := abs_le.mp h.1
  have hupper : ((2 * q + 1 : Nat) : ℝ) ≤ (n + 1 / 2) * (4 * c) := (div_le_iff₀ hpos).mp (by linarith)
  have hlower : ((n : ℝ) - 1 / 2) * (4 * c) ≤ (2 * q + 1 : Nat) := (le_div_iff₀ hpos).mp (by linarith)
  -- The two ends of the interval that rounds to `n` are even, so `2q` and `2q + 2` lie in it with `2q + 1`.
  have hupper' : 2 * q + 1 ≤ 4 * (n * c) + 2 * c := by
    have : ((2 * q + 1 : Nat) : ℝ) ≤ (4 * (n * c) + 2 * c : Nat) := by push_cast at hupper ⊢; linarith
    exact_mod_cast this
  have hlower' : 4 * (n * c) ≤ 2 * q + 1 + 2 * c := by
    have : ((4 * (n * c) : Nat) : ℝ) ≤ (2 * q + 1 + 2 * c : Nat) := by push_cast at hlower ⊢; linarith
    exact_mod_cast this
  have hend : ((2 * q + 2 : Nat) : ℝ) ≤ (4 * (n * c) + 2 * c : Nat) := by exact_mod_cast (by omega)
  have hstart : ((4 * (n * c) : Nat) : ℝ) ≤ (2 * q + 2 * c : Nat) := by exact_mod_cast (by omega)
  push_cast at hend hstart
  have hlt : t / (4 * c) < n + 1 / 2 := (div_lt_iff₀ hpos).mpr (by linarith)
  have hgt : (n : ℝ) - 1 / 2 < t / (4 * c) := (lt_div_iff₀ hpos).mpr (by linarith)
  have hinside : |(n : ℝ) - t / (4 * c)| < 1 / 2 := abs_lt.mpr ⟨by linarith, by linarith⟩
  exact ⟨hinside.le, fun htie => absurd htie hinside.ne⟩

/-- A quotient `t` cut off at its last bit but one, with a last bit for the remainder, is rounded as `t` itself. -/
theorem fRound_sticky_correctlyRounded {q r : Nat} {t : ℝ} (hq : 2 ^ 26 ≤ q) (hs : s = true ↔ v < 0) (hv : |v| = t * 2 ^ e)
    (ht : r = 0 ∧ t = 2 * q ∨ r = 1 ∧ 2 * (q : ℝ) < t ∧ t < 2 * (q : ℝ) + 2) :
    RealCorrectlyRounded v (fRound s (2 * q + r) e) := by
  rcases ht with ⟨rfl, rfl⟩ | ⟨rfl, hlo, hhi⟩
  · exact fRound_correctlyRounded (by omega) hs (by rw [hv]; push_cast; ring)
  have hm : 2 * q + 1 ≠ 0 := by omega
  generalize hl : (2 * q + 1).log2 = l
  have hlog : 27 ≤ l := hl ▸ (Nat.le_log2 hm).mpr (by omega)
  have hlow : 2 ^ l ≤ 2 * q + 1 := hl ▸ Nat.log2_self_le hm
  have hhigh : 2 * q + 1 < 2 ^ (l + 1) := hl ▸ Nat.lt_log2_self
  obtain ⟨k, rfl⟩ := Nat.exists_eq_add_of_le' (by omega : 1 ≤ l)
  have hlow' : 2 ^ (k + 1) ≤ 2 * q := by rw [pow_succ] at *; omega
  have hhigh' : 2 * q + 2 ≤ 2 ^ (k + 1 + 1) := by rw [pow_succ] at *; omega
  have hlow'' : (2 : ℝ) ^ (k + 1) ≤ t := le_trans (by exact_mod_cast hlow') hlo.le
  have hhigh'' : t < 2 ^ (k + 1 + 1) := lt_of_lt_of_le hhi (by exact_mod_cast hhigh')
  obtain ⟨hle, hlt⟩ := scaled_bounds (e := e) hlow'' hhigh''
  rw [fRound_eq hm s rfl, hl]
  refine realCorrectlyRounded_of_roundsTo hs ?_
  rw [hv]
  refine (roundsTo_of_log hle hlt rfl ?_).1
  rw [scaled_div]
  obtain ⟨d, hd⟩ := Int.eq_ofNat_of_zero_le (by omega : 0 ≤ max (e + ((k + 1 : Nat) : Int) - 23) (-149) - e)
  rw [hd]
  exact RoundsToEven.of_sticky (by omega) hlo hhi (shiftRightEven_roundsToEven (2 * q + 1) d)

end Rounded

end Sys2Proof.Machine

/-! ## The arithmetic of binary32 (00_scope sections 5 and 6)

Each operation on finite patterns forms the exact value of its operands' significands and rounds it once. -/

namespace Sys2Proof.Machine

open Sys2Proof.Safety

/-! ### Finite operands -/

section FiniteOperand

variable {x y : F32}

theorem fIsInf_of_fIsFinite (h : fIsFinite x = true) : fIsInf x = false := by
  simp [fIsFinite] at h
  simp [fIsInf, h]

theorem fIsFinite_fNeg (x : F32) : fIsFinite (fNeg x) = fIsFinite x := by rw [fIsFinite, fExponent_fNeg, fIsFinite]

theorem fVal_eq_fSigned (x : F32) : (fVal x : ℝ) = fSigned x * 2 ^ fScale x := by
  rw [fVal]
  push_cast
  rfl

theorem abs_fVal (x : F32) : |(fVal x : ℝ)| = fMantissa x * 2 ^ fScale x := by
  have hscale : (0 : ℝ) < 2 ^ fScale x := by positivity
  have hsigned : |(fSigned x : ℝ)| = fMantissa x := by
    unfold fSigned
    split <;> push_cast <;> simp
  rw [fVal_eq_fSigned, abs_mul, abs_of_pos hscale, hsigned]

theorem fMantissa_eq_zero_iff : fMantissa x = 0 ↔ (fVal x : ℝ) = 0 := by
  have hscale : (2 : ℝ) ^ fScale x ≠ 0 := by positivity
  rw [← abs_eq_zero, abs_fVal, mul_eq_zero, or_iff_left hscale, Nat.cast_eq_zero]

theorem fVal_eq_sign_abs (x : F32) :
    (fVal x : ℝ) = if fNegative x = true then -|(fVal x : ℝ)| else |(fVal x : ℝ)| := by
  rw [abs_fVal]
  conv_lhs => rw [fVal_eq_fSigned, fSigned]
  split <;> push_cast <;> ring

/-- The sign bit of a pattern that is not a zero is the sign of its value. -/
theorem fNegative_iff (h : (fVal x : ℝ) ≠ 0) : fNegative x = true ↔ (fVal x : ℝ) < 0 := by
  have hpos : (0 : ℝ) < |(fVal x : ℝ)| := abs_pos.mpr h
  have hval := fVal_eq_sign_abs x
  split at hval
  · exact iff_of_true ‹_› (by linarith)
  · exact iff_of_false ‹_› (by linarith)

theorem fVal_fNeg (x : F32) : (fVal (fNeg x) : ℝ) = -(fVal x : ℝ) := by
  rw [fVal_eq_orderValue, fOrder_fNeg, orderValue_neg, ← fVal_eq_orderValue]

/-- The sign of a product of values that are not 0, and so of a quotient. -/
theorem bne_fNegative_iff (hx : (fVal x : ℝ) ≠ 0) (hy : (fVal y : ℝ) ≠ 0) :
    (fNegative x != fNegative y) = true ↔ (fVal x : ℝ) * fVal y < 0 := by
  rw [bne_iff_ne, ne_eq, Bool.eq_iff_iff, fNegative_iff hx, fNegative_iff hy]
  rcases hx.lt_or_gt with h | h <;> rcases hy.lt_or_gt with h' | h' <;> simp [mul_neg_iff, h, h', h.not_gt, h'.not_gt]

end FiniteOperand

/-! ### Sums and differences -/

section Sum

variable {x y : F32}

/-- The sum at the scale of the finer operand. -/
def scaledSum (x y : F32) : Int :=
  fSigned x * 2 ^ (fScale x - min (fScale x) (fScale y)).toNat + fSigned y * 2 ^ (fScale y - min (fScale x) (fScale y)).toNat

theorem scaledSum_mul (x y : F32) :
    (scaledSum x y : ℝ) * 2 ^ min (fScale x) (fScale y) = (fVal x : ℝ) + fVal y := by
  have hshift {e f : Int} (h : e ≤ f) : ((2 : ℝ) ^ (f - e).toNat) * 2 ^ e = 2 ^ f := by
    rw [← zpow_natCast, Int.toNat_of_nonneg (by omega), ← zpow_add₀ two_ne_zero, sub_add_cancel]
  rw [scaledSum, fVal_eq_fSigned, fVal_eq_fSigned]
  push_cast
  rw [add_mul, mul_assoc, mul_assoc, hshift (min_le_left _ _), hshift (min_le_right _ _)]

theorem fSumWith_of_finite (hx : fIsFinite x = true) (hy : fIsFinite y = true) (nan : F32) :
    fSumWith nan x y =
      if scaledSum x y = 0 then fZero (fNegative x && fNegative y)
      else fRound (decide (scaledSum x y < 0)) (scaledSum x y).natAbs (min (fScale x) (fScale y)) := by
  simp only [fSumWith, fIsInf_of_fIsFinite hx, fIsInf_of_fIsFinite hy, Bool.false_eq_true, ↓reduceIte]
  rfl

theorem scaledSum_eq_zero_iff : scaledSum x y = 0 ↔ (fVal x : ℝ) + fVal y = 0 := by
  have hscale : (2 : ℝ) ^ min (fScale x) (fScale y) ≠ 0 := by positivity
  rw [← scaledSum_mul, mul_eq_zero, or_iff_left hscale, Int.cast_eq_zero]

theorem fSumWith_correctlyRounded (hx : fIsFinite x = true) (hy : fIsFinite y = true) (nan : F32) :
    RealCorrectlyRounded ((fVal x : ℝ) + fVal y) (fSumWith nan x y) := by
  have hscale : (0 : ℝ) < 2 ^ min (fScale x) (fScale y) := by positivity
  rw [fSumWith_of_finite hx hy]
  by_cases hzero : scaledSum x y = 0
  · rw [if_pos hzero, scaledSum_eq_zero_iff.mp hzero]
    exact realCorrectlyRounded_zero _
  · rw [if_neg hzero]
    refine fRound_correctlyRounded (Int.natAbs_ne_zero.mpr hzero) ?_ ?_
    · rw [← scaledSum_mul, decide_eq_true_iff, mul_neg_iff]
      simp [hscale, hscale.le]
    · rw [← scaledSum_mul, abs_mul, abs_of_pos hscale, Nat.cast_natAbs, Int.cast_abs]

/-- An exact zero is +0, but −0 where both operands are negative. -/
theorem fNegative_fSumWith_zero (hx : fIsFinite x = true) (hy : fIsFinite y = true) (nan : F32)
    (hzero : (fVal x : ℝ) + fVal y = 0) : fNegative (fSumWith nan x y) = (fNegative x && fNegative y) := by
  rw [fSumWith_of_finite hx hy, if_pos (scaledSum_eq_zero_iff.mpr hzero)]
  exact fNegative_fBuild _ 0

theorem fAdd_of_finite (hx : fIsFinite x = true) (hy : fIsFinite y = true) :
    fAdd x y = fSumWith (fNaN .add x y) x y := by
  simp only [fAdd, fIsNaN_of_fIsFinite hx, fIsNaN_of_fIsFinite hy, Bool.or_self, Bool.false_eq_true, ↓reduceIte]

theorem fSub_of_finite (hx : fIsFinite x = true) (hy : fIsFinite y = true) :
    fSub x y = fSumWith (fNaN .sub x y) x (fNeg y) := by
  simp only [fSub, fIsNaN_of_fIsFinite hx, fIsNaN_of_fIsFinite hy, Bool.or_self, Bool.false_eq_true, ↓reduceIte]

end Sum

/-! ### Products and quotients -/

section Product

variable {x y : F32}

theorem fMul_of_finite (hx : fIsFinite x = true) (hy : fIsFinite y = true) :
    fMul x y = fRound (fNegative x != fNegative y) (fMantissa x * fMantissa y) (fScale x + fScale y) := by
  simp only [fMul, fIsNaN_of_fIsFinite hx, fIsNaN_of_fIsFinite hy, fIsInf_of_fIsFinite hx, fIsInf_of_fIsFinite hy,
    Bool.or_self, Bool.and_false, Bool.false_and, Bool.false_eq_true, ↓reduceIte]

theorem fMul_correctlyRounded (hx : fIsFinite x = true) (hy : fIsFinite y = true) :
    RealCorrectlyRounded ((fVal x : ℝ) * fVal y) (fMul x y) := by
  rw [fMul_of_finite hx hy]
  by_cases hzero : (fVal x : ℝ) * fVal y = 0
  · have hmantissa : fMantissa x * fMantissa y = 0 :=
      Nat.mul_eq_zero.mpr ((mul_eq_zero.mp hzero).imp fMantissa_eq_zero_iff.mpr fMantissa_eq_zero_iff.mpr)
    rw [hzero, hmantissa, fRound_zero]
    exact realCorrectlyRounded_zero _
  · obtain ⟨hx0, hy0⟩ := mul_ne_zero_iff.mp hzero
    have hmantissa : fMantissa x * fMantissa y ≠ 0 :=
      Nat.mul_ne_zero (mt fMantissa_eq_zero_iff.mp hx0) (mt fMantissa_eq_zero_iff.mp hy0)
    refine fRound_correctlyRounded hmantissa (bne_fNegative_iff hx0 hy0) ?_
    rw [abs_mul, abs_fVal, abs_fVal, zpow_add₀ two_ne_zero]
    push_cast
    ring

/-- A divisor that is not 0 has at most 24 bits, so the quotient has 27 before the bit for the remainder. -/
theorem quotient_ge {m n : Nat} (hm : m ≠ 0) (hn : n ≠ 0) (hlt : n < 2 ^ 24) : 2 ^ 26 ≤ m * 2 ^ 50 / n := by
  rw [Nat.le_div_iff_mul_le (Nat.pos_of_ne_zero hn)]
  calc 2 ^ 26 * n ≤ 2 ^ 26 * 2 ^ 24 := Nat.mul_le_mul_left _ hlt.le
    _ = 1 * 2 ^ 50 := by norm_num
    _ ≤ m * 2 ^ 50 := Nat.mul_le_mul_right _ (Nat.pos_of_ne_zero hm)

theorem fMantissa_lt (x : F32) : fMantissa x < 2 ^ 24 := by
  have hlt : fFraction x < 2 ^ 23 := BitVec.isLt _
  unfold fMantissa
  split <;> omega

theorem fIsZero_eq_false (hy : (fVal y : ℝ) ≠ 0) : fIsZero y = false := by
  rw [fIsZero, beq_eq_false_iff_ne]
  intro hzero
  have hmagnitude : fMagnitude y = 0 := by rw [fMagnitude, hzero]; rfl
  refine hy (fMantissa_eq_zero_iff.mp ?_)
  rw [fMantissa, fExponent_eq_magnitude, fFraction_eq_magnitude, hmagnitude]
  rfl

theorem fDiv_of_finite (hx : fIsFinite x = true) (hy : fIsFinite y = true) (hy0 : (fVal y : ℝ) ≠ 0) :
    fDiv x y = fRound (fNegative x != fNegative y)
      (2 * (fMantissa x * 2 ^ 50 / fMantissa y) + if fMantissa x * 2 ^ 50 % fMantissa y = 0 then 0 else 1)
      (fScale x - fScale y - 51) := by
  simp only [fDiv, fIsNaN_of_fIsFinite hx, fIsNaN_of_fIsFinite hy, fIsInf_of_fIsFinite hx, fIsInf_of_fIsFinite hy,
    fIsZero_eq_false hy0, Bool.or_self, Bool.and_false, Bool.false_eq_true, ↓reduceIte]

/-- The quotient of two integers, twice: even with nothing left, or between two even numbers. -/
theorem twice_quotient_cases {m n : Nat} (hn : n ≠ 0) :
    (if m % n = 0 then 0 else 1) = 0 ∧ 2 * ((m : ℝ) / n) = 2 * (m / n : Nat) ∨
      (if m % n = 0 then 0 else 1) = 1 ∧ 2 * ((m / n : Nat) : ℝ) < 2 * ((m : ℝ) / n) ∧
        2 * ((m : ℝ) / n) < 2 * ((m / n : Nat) : ℝ) + 2 := by
  have hpos : (0 : ℝ) < n := by exact_mod_cast Nat.pos_of_ne_zero hn
  have hparts : (m : ℝ) = n * (m / n : Nat) + (m % n : Nat) := by exact_mod_cast (Nat.div_add_mod m n).symm
  have hquot : (m : ℝ) / n = (m / n : Nat) + (m % n : Nat) / n := by
    rw [hparts]
    field_simp
  rw [hquot]
  by_cases hrem : m % n = 0
  · simp [hrem]
  · have hrem0 : (0 : ℝ) < (m % n : Nat) / n := div_pos (by exact_mod_cast Nat.pos_of_ne_zero hrem) hpos
    have hrem1 : ((m % n : Nat) : ℝ) / n < 1 := (div_lt_one hpos).mpr (by exact_mod_cast Nat.mod_lt m (Nat.pos_of_ne_zero hn))
    refine .inr ⟨if_neg hrem, by linarith, by linarith⟩

theorem fDiv_correctlyRounded (hx : fIsFinite x = true) (hy : fIsFinite y = true) (hy0 : (fVal y : ℝ) ≠ 0) :
    RealCorrectlyRounded ((fVal x : ℝ) / fVal y) (fDiv x y) := by
  have hdivisor : fMantissa y ≠ 0 := mt fMantissa_eq_zero_iff.mp hy0
  rw [fDiv_of_finite hx hy hy0]
  by_cases hx0 : (fVal x : ℝ) = 0
  · rw [hx0, zero_div, fMantissa_eq_zero_iff.mpr hx0, Nat.zero_mul, Nat.zero_div, Nat.zero_mod, if_pos rfl, fRound_zero]
    exact realCorrectlyRounded_zero _
  · have hdividend : fMantissa x ≠ 0 := mt fMantissa_eq_zero_iff.mp hx0
    have hsign : (fNegative x != fNegative y) = true ↔ (fVal x : ℝ) / fVal y < 0 := by
      rw [bne_fNegative_iff hx0 hy0, mul_neg_iff, div_neg_iff]
    refine fRound_sticky_correctlyRounded (quotient_ge hdividend hdivisor (fMantissa_lt y)) hsign ?_
      (twice_quotient_cases hdivisor)
    rw [abs_div, abs_fVal, abs_fVal, zpow_sub₀ two_ne_zero, zpow_sub₀ two_ne_zero]
    have : (fMantissa y : ℝ) ≠ 0 := by exact_mod_cast hdivisor
    push_cast
    field_simp
    norm_num

end Product

/-- Settles O59: each operation rounds its exact value once; the sign of a zero is the one its rounding is given. -/
theorem arithmeticIsCorrectlyRounded : Obligations.ArithmeticIsCorrectlyRounded := by
  intro x y hx hy
  have hny : fIsFinite (fNeg y) = true := (fIsFinite_fNeg y).trans hy
  have hsub : (fVal x : ℝ) - fVal y = (fVal x : ℝ) + fVal (fNeg y) := by rw [fVal_fNeg, sub_eq_add_neg]
  refine ⟨?add, ?sub, ?mul, fun hy0 => ⟨?div, ?divSign⟩, fun hzero => ?addSign, fun hzero => ?subSign, ?mulSign⟩
  case add =>
    refine correctlyRounded_of_real ?_
    rw [fAdd_of_finite hx hy, Rat.cast_add]
    exact fSumWith_correctlyRounded hx hy _
  case sub =>
    refine correctlyRounded_of_real ?_
    rw [fSub_of_finite hx hy, Rat.cast_sub, hsub]
    exact fSumWith_correctlyRounded hx hny _
  case mul =>
    refine correctlyRounded_of_real ?_
    rw [Rat.cast_mul]
    exact fMul_correctlyRounded hx hy
  case div =>
    refine correctlyRounded_of_real ?_
    rw [Rat.cast_div]
    exact fDiv_correctlyRounded hx hy (by exact_mod_cast hy0)
  case divSign => rw [fDiv_of_finite hx hy (by exact_mod_cast hy0), fNegative_fRound]
  case addSign =>
    rw [fAdd_of_finite hx hy]
    exact fNegative_fSumWith_zero hx hy _ (by exact_mod_cast hzero)
  case subSign =>
    rw [fSub_of_finite hx hy, fNegative_fSumWith_zero hx hny _ (hsub ▸ by exact_mod_cast hzero), fNegative_fNeg]
  case mulSign => rw [fMul_of_finite hx hy, fNegative_fRound]

/-! ### The registers under NUM = REAL (30_encoding R103) -/

theorem realOfBits_eq_fVal (w : Word) : realOfBits w = (fVal w : ℝ) := (fVal_eq_fSigned w).symm

/-- Settles O48: a read rounds the value correctly, and a write takes the value of the pattern. -/
theorem realRegistersShowNearestAndTakeExact : Obligations.RealRegistersShowNearestAndTakeExact := by
  intro s
  refine ⟨⟨rfl, rfl, rfl, rfl, rfl, rfl, rfl, rfl, rfl, rfl⟩, fun x hx => (realBits32_correctlyRounded x).1 hx,
    fun data hdata => ?_⟩
  simp only [execOver, opRegWrite, regWrite, hdata, checked_ok, realNum_ofBits, realOfBits_eq_fVal, realNum_clamp]
  exact ⟨rfl, rfl, rfl, rfl⟩

end Sys2Proof.Machine

/-! ## The duties of SVPWM (43_svpwm R170, R175)

The rounding of a finite value to an integer, and the exact duty of the safe default. -/

namespace Sys2Proof.Machine

open Sys2Proof.Safety

/-! ### Rounding half away from zero -/

/-- The magnitude `roundAway` gives its value. -/
def roundAwayMagnitude (x : F32) : Nat :=
  if 0 ≤ fScale x then fMantissa x * 2 ^ (fScale x).toNat
  else (2 * fMantissa x + 2 ^ (-fScale x).toNat) / (2 * 2 ^ (-fScale x).toNat)

theorem roundAway_eq (x : F32) :
    roundAway x = if fNegative x = true then -(roundAwayMagnitude x : Int) else (roundAwayMagnitude x : Int) := rfl

/-- `⌊m/p + 1/2⌋` is within a half of `m/p`, and above it in a tie. -/
theorem half_up_div (m : Nat) {p : Nat} (hp : 0 < p) :
    |(m : ℝ) / p - ((2 * m + p) / (2 * p) : Nat)| ≤ 1 / 2 ∧
      (|(m : ℝ) / p - ((2 * m + p) / (2 * p) : Nat)| = 1 / 2 → (m : ℝ) / p < ((2 * m + p) / (2 * p) : Nat)) := by
  generalize hn : (2 * m + p) / (2 * p) = n
  have hpos : (0 : ℝ) < p := by exact_mod_cast hp
  have hle : n * (2 * p) ≤ 2 * m + p := hn ▸ Nat.div_mul_le_self _ _
  have hlt : 2 * m + p < (n + 1) * (2 * p) := (Nat.div_lt_iff_lt_mul (by omega)).mp (by omega)
  have hle' : (n : ℝ) * (2 * p) ≤ 2 * m + p := by exact_mod_cast hle
  have hlt' : 2 * (m : ℝ) + p < (n + 1) * (2 * p) := by exact_mod_cast hlt
  have hupper : (n : ℝ) - 1 / 2 ≤ m / p := (le_div_iff₀ hpos).mpr (by linarith)
  have hlower : (m : ℝ) / p < n + 1 / 2 := (div_lt_iff₀ hpos).mpr (by linarith)
  refine ⟨abs_le.mpr ⟨by linarith, by linarith⟩, fun htie => ?_⟩
  rcases abs_choice ((m : ℝ) / p - n) with h | h <;> linarith

theorem roundAwayMagnitude_nearest (x : F32) :
    |(|(fVal x : ℝ)|) - roundAwayMagnitude x| ≤ 1 / 2 ∧
      (|(|(fVal x : ℝ)|) - roundAwayMagnitude x| = 1 / 2 → |(fVal x : ℝ)| < roundAwayMagnitude x) := by
  unfold roundAwayMagnitude
  rw [abs_fVal]
  split
  · next hscale =>
    obtain ⟨k, hk⟩ := Int.eq_ofNat_of_zero_le hscale
    rw [hk]
    norm_num
  · next hscale =>
    obtain ⟨k, hk⟩ := Int.eq_ofNat_of_zero_le (by omega : 0 ≤ -fScale x)
    have hk' : fScale x = -(k : Int) := by omega
    have hdiv : (fMantissa x : ℝ) * 2 ^ fScale x = fMantissa x / (2 ^ k : Nat) := by
      rw [hk', zpow_neg, zpow_natCast]
      push_cast
      rfl
    rw [hdiv, hk, Int.toNat_natCast]
    exact half_up_div _ (Nat.two_pow_pos k)

/-- `round` gives a nearest integer, in a tie the one farther from zero. -/
theorem roundAway_nearest_real (x : F32) :
    |(fVal x : ℝ) - roundAway x| ≤ 1 / 2 ∧
      (|(fVal x : ℝ) - roundAway x| = 1 / 2 → |(fVal x : ℝ)| < |(roundAway x : ℝ)|) := by
  have hdist : |(fVal x : ℝ) - roundAway x| = |(|(fVal x : ℝ)|) - roundAwayMagnitude x| := by
    rw [roundAway_eq]
    conv_lhs => rw [fVal_eq_sign_abs]
    split
    · rw [← abs_neg]
      push_cast
      ring_nf
    · push_cast
      rfl
  have habs : |(roundAway x : ℝ)| = roundAwayMagnitude x := by
    rw [roundAway_eq]
    split <;> push_cast <;> simp
  have hnearest := roundAwayMagnitude_nearest x
  rwa [← hdist, ← habs] at hnearest

theorem roundAway_nearest (x : F32) :
    |fVal x - roundAway x| ≤ 1 / 2 ∧ (|fVal x - roundAway x| = 1 / 2 → |fVal x| < |(roundAway x : Rat)|) := by
  have hreal := roundAway_nearest_real x
  rw [← Rat.cast_le (K := ℝ), ← Rat.cast_lt (K := ℝ), ← Rat.cast_inj (α := ℝ)]
  push_cast at hreal ⊢
  exact hreal

theorem clampRound_of_finite {x : F32} (h : fIsFinite x = true) (max : Nat) : clampRound x max = min (roundAway x).toNat max := by
  simp only [clampRound, fIsNaN_of_fIsFinite h, fIsInf_of_fIsFinite h, Bool.false_eq_true, ↓reduceIte]

/-! ### Exact results -/

/-- A value some finite pattern has is not rounded. -/
theorem fVal_of_correctlyRounded {v : ℝ} {r z : F32} (h : RealCorrectlyRounded v r) (hv : |v| < 2 ^ 128 - 2 ^ 103)
    (hz : fIsFinite z = true) (hval : (fVal z : ℝ) = v) : fIsFinite r = true ∧ (fVal r : ℝ) = v := by
  obtain ⟨hr, hnear⟩ := h.1 hv
  obtain ⟨hdist, -⟩ := hnear z hz
  rw [hval, sub_self, abs_zero] at hdist
  exact ⟨hr, sub_eq_zero.mp (abs_nonpos_iff.mp hdist)⟩

/-- A significand of at most 24 bits is not rounded. -/
theorem fRound_exact {m : Nat} {e : Int} (hm : m ≠ 0) (hlt : m < 2 ^ 24) (he : -149 ≤ e)
    (hbound : (m : ℝ) * 2 ^ e < 2 ^ 128 - 2 ^ 103) :
    fIsFinite (fRound false m e) = true ∧ (fVal (fRound false m e) : ℝ) = m * 2 ^ e := by
  have hlow : (2 : ℝ) ^ m.log2 ≤ m := by exact_mod_cast Nat.log2_self_le hm
  have hhigh : (m : ℝ) < 2 ^ (m.log2 + 1) := by exact_mod_cast Nat.lt_log2_self
  have hlog : m.log2 < 24 := (Nat.log2_lt hm).mpr hlt
  generalize hlast : max (e + m.log2 - 23) (-149) = last
  obtain ⟨k, hk⟩ := Int.eq_ofNat_of_zero_le (by omega : 0 ≤ e - last)
  have hshift : shiftRightEven m (last - e) = m * 2 ^ k := by
    rw [shiftRightEven, if_pos (by omega), show (-(last - e)).toNat = k by omega]
  obtain ⟨hle, hlt'⟩ := scaled_bounds (e := e) hlow hhigh
  obtain ⟨hrounds, hvalue⟩ := roundsTo_of_log hle hlt' hlast.symm
    (by rw [scaled_div]; exact shiftRightEven_roundsToEven m (last - e))
  have hfinite := hrounds.lt_infinity_iff.mpr hbound
  rw [fRound_eq hm false hlast.symm]
  have hmagnitude := fMagnitude_ofMagnitude false hfinite
  refine ⟨fIsFinite_iff.mpr (by omega), ?_⟩
  rw [fVal_eq_orderValue, fOrder_eq, fNegative_ofMagnitude, hmagnitude, if_neg Bool.false_ne_true, orderValue_natCast, hvalue,
    hshift, show e = k + last by omega, zpow_add₀ two_ne_zero, zpow_natCast]
  push_cast
  ring

/-! ### The safe default (R170) -/

/-- Half of a duty bound of at most 16 bits is exact. -/
theorem fVal_half_mul_fOfNat {max : Nat} (hpos : 1 ≤ max) (hmax : max ≤ 65535) :
    fIsFinite (fMul 0x3F000000#32 (fOfNat max)) = true ∧
      (fVal (fMul 0x3F000000#32 (fOfNat max)) : ℝ) = max / 2 := by
  have hreal : (max : ℝ) ≤ 65535 := by exact_mod_cast hmax
  have hnonneg : (0 : ℝ) ≤ max := Nat.cast_nonneg max
  have hhalf : (fVal 0x3F000000#32 : ℝ) = 1 / 2 := by
    rw [fVal_eq_fSigned, show fSigned 0x3F000000#32 = 8388608 by decide, show fScale 0x3F000000#32 = -24 by decide]
    norm_num
  have hbound {v : ℝ} (h : v ≤ 65535) : v < 2 ^ 128 - 2 ^ 103 := h.trans_lt (by norm_num)
  obtain ⟨hfinite, hvalue⟩ := fRound_exact (m := max) (e := 0) (by omega) (by omega) (by norm_num) (hbound (by simpa))
  obtain ⟨hfinite', hvalue'⟩ := fRound_exact (m := max) (e := -1) (by omega) (by omega) (by norm_num)
    (hbound (by norm_num; linarith))
  have hproduct : (fVal 0x3F000000#32 : ℝ) * fVal (fOfNat max) = max / 2 := by
    rw [hhalf, fOfNat, hvalue]
    norm_num
    ring
  have hrounded := fMul_correctlyRounded (x := 0x3F000000#32) (by decide) hfinite
  rw [← fOfNat, hproduct] at hrounded
  refine fVal_of_correctlyRounded hrounded (hbound ?_) hfinite' ?_
  · rw [abs_of_nonneg (by linarith)]
    linarith
  · rw [hvalue']
    norm_num
    ring

/-- Half of an integer, to the nearest integer, halves away from zero. -/
theorem eq_succ_div_two {m : Nat} {n : Int} (hnear : |((m : ℝ) / 2) - n| ≤ 1 / 2)
    (htie : |((m : ℝ) / 2) - n| = 1 / 2 → |(m : ℝ) / 2| < |(n : ℝ)|) : n = ((m + 1) / 2 : Nat) := by
  obtain ⟨hlo, hhi⟩ := abs_le.mp hnear
  have hlower : (m : Int) ≤ 2 * n + 1 := by
    have : (m : ℝ) ≤ 2 * n + 1 := by linarith
    exact_mod_cast this
  have hupper : 2 * n ≤ m + 1 := by
    have : 2 * (n : ℝ) ≤ m + 1 := by linarith
    exact_mod_cast this
  have hnotBelow : (m : Int) ≠ 2 * n + 1 := by
    intro hbelow
    have hreal : (m : ℝ) = 2 * n + 1 := by exact_mod_cast hbelow
    have hn : (0 : ℝ) ≤ n := by exact_mod_cast (by omega : 0 ≤ n)
    have hfar := htie (by rw [hreal, abs_of_nonneg] <;> linarith)
    rw [abs_of_nonneg (by positivity), abs_of_nonneg hn] at hfar
    linarith
  omega

/-- A raw phase value of 0 is the duty 1/2. -/
theorem dutyOf_zero {max : Nat} (hpos : 1 ≤ max) (hmax : max ≤ 65535) : dutyOf f32Num max 0#32 = (max + 1) / 2 := by
  have hhalf : fDiv (fAdd 0#32 0x3F800000#32) 0x40000000#32 = 0x3F000000#32 := by decide +kernel
  obtain ⟨hfinite, hvalue⟩ := fVal_half_mul_fOfNat hpos hmax
  obtain ⟨hnear, htie⟩ := roundAway_nearest_real (fMul 0x3F000000#32 (fOfNat max))
  rw [hvalue] at hnear htie
  have hround := eq_succ_div_two hnear htie
  rw [dutyOf_f32Num, hhalf, clampRound_of_finite hfinite, hround]
  omega

/-- Settles O25: a duty is a clamped rounding, and the safe default's value is halfway up the range. -/
theorem svpwmRangeAndSafeDefault : Obligations.SvpwmRangeAndSafeDefault := by
  refine ⟨fun k va vb vdc max => ⟨⟨clampRound_le _ _, clampRound_le _ _, clampRound_le _ _⟩, fun hpos hmax hvdc => ?_⟩,
    fun value max => ⟨dutyOf_f32Num max value, fun hfinite => ?_⟩⟩
  · rw [svpwm_of_svValues (svValues_safeDefault hvdc)]
    exact ⟨dutyOf_zero hpos hmax, dutyOf_zero hpos hmax, dutyOf_zero hpos hmax⟩
  · obtain ⟨hnear, htie⟩ := roundAway_nearest value
    exact ⟨roundAway value, hnear, htie, clampRound_of_finite hfinite max⟩

end Sys2Proof.Machine
